-- ==== Sys2Proof/Word.lean ====
section
/-! DEFINITION. The word types of the block (spec/00_scope.md R7, R8) and the transfer direction (R92). -/

namespace Sys2Proof

/-- An 8-bit value: one bus transfer (R8, R32). -/
abbrev Byte := BitVec 8

/-- The direction operand of an address match (R92), and bit 8 of the opcode key (R57): write 0, read 1. -/
inductive Dir where
  | write
  | read
deriving DecidableEq, Repr

end Sys2Proof
end

