-- ==== Sys2Proof/Syntax.lean ====
section
/-! DEFINITION. The instructions: one constructor per row of spec/opcode_table.json (R57), in the table's order.
An instruction is one data-byte event of its (direction, command) form (R97, R98; log entry 10). The operand `b` is the
data byte written; the operand `c` of an unrecognized row is the command code (R121, R122). -/

namespace Sys2Proof

/-- One constructor per row of the opcode table; the docstrings give the row and the rule of its meaning. -/
inductive Instr where
  /-- C0.W_CONTROL, key 0x000, R101. -/
  | c0wControl (b : Byte)
  /-- C0.R_CONTROL, key 0x100, R102. -/
  | c0rControl
  /-- C1.W_PERIOD, key 0x001, R103. -/
  | c1wPeriod (b : Byte)
  /-- C1.R_PERIOD, key 0x101, R104. -/
  | c1rPeriod
  /-- C2.W_COUNT, key 0x002, R105. -/
  | c2wCount (b : Byte)
  /-- C2.R_COUNT, key 0x102, R106. -/
  | c2rCount
  /-- C3.W_UNPACKED, key 0x003, R107. -/
  | c3wUnpacked (b : Byte)
  /-- C3.R_UNPACKED, key 0x103, R108. -/
  | c3rUnpacked
  /-- C4.W_PACKED, key 0x004, R109. -/
  | c4wPacked (b : Byte)
  /-- C4.R_PACKED, key 0x104, R110. -/
  | c4rPacked
  /-- C5.W_ADDR_STAGE, key 0x005, R111. -/
  | c5wAddrStage (b : Byte)
  /-- C5.R_ADDR_STAGE, key 0x105, R112. -/
  | c5rAddrStage
  /-- C6.W_TICKS, key 0x006, R113. -/
  | c6wTicks (b : Byte)
  /-- C6.R_TICKS, key 0x106, R114. -/
  | c6rTicks
  /-- C7.W_IDENT, key 0x007, R115. -/
  | c7wIdent (b : Byte)
  /-- C7.R_IDENT, key 0x107, R116. -/
  | c7rIdent
  /-- C8.W_TRIM, key 0x008, R117. -/
  | c8wTrim (b : Byte)
  /-- C8.R_TRIM, key 0x108, R118. -/
  | c8rTrim
  /-- C9.W_COMMIT, key 0x009, R119. -/
  | c9wCommit (b : Byte)
  /-- C9.R_COMMIT, key 0x109, R120. -/
  | c9rCommit
  /-- CX.W_UNRECOGNIZED_10..11, keys 0x00A..0x00B, R121. -/
  | cxw10to11 (c b : Byte)
  /-- CX.W_UNRECOGNIZED_12..15, keys 0x00C..0x00F, R121. -/
  | cxw12to15 (c b : Byte)
  /-- CX.W_UNRECOGNIZED_16..31, keys 0x010..0x01F, R121. -/
  | cxw16to31 (c b : Byte)
  /-- CX.W_UNRECOGNIZED_32..63, keys 0x020..0x03F, R121. -/
  | cxw32to63 (c b : Byte)
  /-- CX.W_UNRECOGNIZED_64..127, keys 0x040..0x07F, R121. -/
  | cxw64to127 (c b : Byte)
  /-- CX.W_UNRECOGNIZED_128..255, keys 0x080..0x0FF, R121. -/
  | cxw128to255 (c b : Byte)
  /-- CX.R_UNRECOGNIZED_10..11, keys 0x10A..0x10B, R122. -/
  | cxr10to11 (c : Byte)
  /-- CX.R_UNRECOGNIZED_12..15, keys 0x10C..0x10F, R122. -/
  | cxr12to15 (c : Byte)
  /-- CX.R_UNRECOGNIZED_16..31, keys 0x110..0x11F, R122. -/
  | cxr16to31 (c : Byte)
  /-- CX.R_UNRECOGNIZED_32..63, keys 0x120..0x13F, R122. -/
  | cxr32to63 (c : Byte)
  /-- CX.R_UNRECOGNIZED_64..127, keys 0x140..0x17F, R122. -/
  | cxr64to127 (c : Byte)
  /-- CX.R_UNRECOGNIZED_128..255, keys 0x180..0x1FF, R122. -/
  | cxr128to255 (c : Byte)
deriving DecidableEq, Repr

end Sys2Proof
end

