-- ==== Sys2Proof/WellFormed.lean ====
section
/-! DEFINITION. Which instructions the encoding admits: the command code of an unrecognized row lies in the row's range
(R57: 10..11, 12..15, 16..31, 32..63, 64..127 and 128..255). Every data byte is admitted (R54). -/

namespace Sys2Proof

/-- The command code c lies in lo..hi. -/
def codeIn (lo hi : Nat) (c : Byte) : Bool :=
  lo ≤ c.toNat && c.toNat ≤ hi

/-- The instruction is one that the opcode table's encoding admits (R57). -/
def Instr.wellFormed : Instr → Bool
  | .c0wControl _ => true
  | .c0rControl => true
  | .c1wPeriod _ => true
  | .c1rPeriod => true
  | .c2wCount _ => true
  | .c2rCount => true
  | .c3wUnpacked _ => true
  | .c3rUnpacked => true
  | .c4wPacked _ => true
  | .c4rPacked => true
  | .c5wAddrStage _ => true
  | .c5rAddrStage => true
  | .c6wTicks _ => true
  | .c6rTicks => true
  | .c7wIdent _ => true
  | .c7rIdent => true
  | .c8wTrim _ => true
  | .c8rTrim => true
  | .c9wCommit _ => true
  | .c9rCommit => true
  | .cxw10to11 c _ => codeIn 10 11 c
  | .cxw12to15 c _ => codeIn 12 15 c
  | .cxw16to31 c _ => codeIn 16 31 c
  | .cxw32to63 c _ => codeIn 32 63 c
  | .cxw64to127 c _ => codeIn 64 127 c
  | .cxw128to255 c _ => codeIn 128 255 c
  | .cxr10to11 c => codeIn 10 11 c
  | .cxr12to15 c => codeIn 12 15 c
  | .cxr16to31 c => codeIn 16 31 c
  | .cxr32to63 c => codeIn 32 63 c
  | .cxr64to127 c => codeIn 64 127 c
  | .cxr128to255 c => codeIn 128 255 c

end Sys2Proof
end

