-- ==== Sys2Proof/Decode.lean ====
section
/-! DEFINITION. The decoder and the encoder of the opcode key (R57), the table's rows written once.

An instruction is laid out as the bytes
  byte 0 = cmd[7:0], byte 1 = dir in bit 0 and zeros above, and for a write row byte 2 = the data byte,
so that, bits numbered from the first byte, bits 8:0 are the key K = {dir, cmd[7:0]} of R57 (log entry 10). -/

namespace Sys2Proof

/-- Why a byte string is no instruction. -/
inductive DecodeError where
  /-- Fewer than the two bytes of the key. -/
  | truncatedKey
  /-- A bit above bit 8 of the key's two bytes is set: the key has 9 bits (R57). -/
  | reservedKeyBits
  /-- A write row without its data byte. -/
  | missingDataByte
  /-- No row of the opcode table selects the key. -/
  | noRow
deriving DecidableEq, Repr

/-- What a row makes of the command byte and, in a write row, of the data byte. -/
inductive RowForm where
  | write (build : Byte → Byte → Instr)
  | read (build : Byte → Instr)

/-- One row of spec/opcode_table.json: it selects the key K when `K &&& mask = pattern` (R57). -/
structure OpcodeRow where
  pattern : BitVec 9
  mask : BitVec 9
  form : RowForm

/-- The opcode table's write rows (dir = 0), in the table's order. -/
def writeRows : List OpcodeRow := [
  ⟨0x000#9, 0x1FF#9, .write fun _ b => .c0wControl b⟩,
  ⟨0x001#9, 0x1FF#9, .write fun _ b => .c1wPeriod b⟩,
  ⟨0x002#9, 0x1FF#9, .write fun _ b => .c2wCount b⟩,
  ⟨0x003#9, 0x1FF#9, .write fun _ b => .c3wUnpacked b⟩,
  ⟨0x004#9, 0x1FF#9, .write fun _ b => .c4wPacked b⟩,
  ⟨0x005#9, 0x1FF#9, .write fun _ b => .c5wAddrStage b⟩,
  ⟨0x006#9, 0x1FF#9, .write fun _ b => .c6wTicks b⟩,
  ⟨0x007#9, 0x1FF#9, .write fun _ b => .c7wIdent b⟩,
  ⟨0x008#9, 0x1FF#9, .write fun _ b => .c8wTrim b⟩,
  ⟨0x009#9, 0x1FF#9, .write fun _ b => .c9wCommit b⟩,
  ⟨0x00A#9, 0x1FE#9, .write fun c b => .cxw10to11 c b⟩,
  ⟨0x00C#9, 0x1FC#9, .write fun c b => .cxw12to15 c b⟩,
  ⟨0x010#9, 0x1F0#9, .write fun c b => .cxw16to31 c b⟩,
  ⟨0x020#9, 0x1E0#9, .write fun c b => .cxw32to63 c b⟩,
  ⟨0x040#9, 0x1C0#9, .write fun c b => .cxw64to127 c b⟩,
  ⟨0x080#9, 0x180#9, .write fun c b => .cxw128to255 c b⟩]

/-- The opcode table's read rows (dir = 1), in the table's order. -/
def readRows : List OpcodeRow := [
  ⟨0x100#9, 0x1FF#9, .read fun _ => .c0rControl⟩,
  ⟨0x101#9, 0x1FF#9, .read fun _ => .c1rPeriod⟩,
  ⟨0x102#9, 0x1FF#9, .read fun _ => .c2rCount⟩,
  ⟨0x103#9, 0x1FF#9, .read fun _ => .c3rUnpacked⟩,
  ⟨0x104#9, 0x1FF#9, .read fun _ => .c4rPacked⟩,
  ⟨0x105#9, 0x1FF#9, .read fun _ => .c5rAddrStage⟩,
  ⟨0x106#9, 0x1FF#9, .read fun _ => .c6rTicks⟩,
  ⟨0x107#9, 0x1FF#9, .read fun _ => .c7rIdent⟩,
  ⟨0x108#9, 0x1FF#9, .read fun _ => .c8rTrim⟩,
  ⟨0x109#9, 0x1FF#9, .read fun _ => .c9rCommit⟩,
  ⟨0x10A#9, 0x1FE#9, .read fun c => .cxr10to11 c⟩,
  ⟨0x10C#9, 0x1FC#9, .read fun c => .cxr12to15 c⟩,
  ⟨0x110#9, 0x1F0#9, .read fun c => .cxr16to31 c⟩,
  ⟨0x120#9, 0x1E0#9, .read fun c => .cxr32to63 c⟩,
  ⟨0x140#9, 0x1C0#9, .read fun c => .cxr64to127 c⟩,
  ⟨0x180#9, 0x180#9, .read fun c => .cxr128to255 c⟩]

/-- The whole opcode table: 32 rows. -/
def opcodeRows : List OpcodeRow := writeRows ++ readRows

/-- A row selects a key (R57). -/
def OpcodeRow.selects (r : OpcodeRow) (key : BitVec 9) : Bool :=
  key &&& r.mask == r.pattern

/-- The key K = {dir, cmd[7:0]} of R57. -/
def opcodeKey (dirBit : BitVec 1) (cmd : Byte) : BitVec 9 :=
  dirBit ++ cmd

/-- The row that selects a key. -/
def rowOf (key : BitVec 9) : Option OpcodeRow :=
  opcodeRows.find? fun r => r.selects key

/-- Reads one instruction from the front of a byte string: the instruction and the bytes after it, or the reason why
there is none. Total on any bytes. -/
def decode (bytes : List Byte) : Except DecodeError (Instr × List Byte) :=
  match bytes with
  | cmd :: hi :: rest =>
    if hi.extractLsb' 1 7 = 0 then
      match rowOf (opcodeKey (hi.extractLsb' 0 1) cmd) with
      | none => .error .noRow
      | some row =>
        match row.form, rest with
        | .write build, b :: rest' => .ok (build cmd b, rest')
        | .write _, [] => .error .missingDataByte
        | .read build, rest => .ok (build cmd, rest)
    else .error .reservedKeyBits
  | _ => .error .truncatedKey

/-- The key's two bytes for a direction and a command byte. -/
def keyBytes (d : Dir) (cmd : Byte) : List Byte :=
  match d with
  | .write => [cmd, 0x00]
  | .read => [cmd, 0x01]

/-- The bytes of a well-formed instruction (R57). -/
def encode (i : Instr) : List Byte :=
  match i with
  | .c0wControl b => keyBytes .write 0x00 ++ [b]
  | .c0rControl => keyBytes .read 0x00
  | .c1wPeriod b => keyBytes .write 0x01 ++ [b]
  | .c1rPeriod => keyBytes .read 0x01
  | .c2wCount b => keyBytes .write 0x02 ++ [b]
  | .c2rCount => keyBytes .read 0x02
  | .c3wUnpacked b => keyBytes .write 0x03 ++ [b]
  | .c3rUnpacked => keyBytes .read 0x03
  | .c4wPacked b => keyBytes .write 0x04 ++ [b]
  | .c4rPacked => keyBytes .read 0x04
  | .c5wAddrStage b => keyBytes .write 0x05 ++ [b]
  | .c5rAddrStage => keyBytes .read 0x05
  | .c6wTicks b => keyBytes .write 0x06 ++ [b]
  | .c6rTicks => keyBytes .read 0x06
  | .c7wIdent b => keyBytes .write 0x07 ++ [b]
  | .c7rIdent => keyBytes .read 0x07
  | .c8wTrim b => keyBytes .write 0x08 ++ [b]
  | .c8rTrim => keyBytes .read 0x08
  | .c9wCommit b => keyBytes .write 0x09 ++ [b]
  | .c9rCommit => keyBytes .read 0x09
  | .cxw10to11 c b => keyBytes .write c ++ [b]
  | .cxw12to15 c b => keyBytes .write c ++ [b]
  | .cxw16to31 c b => keyBytes .write c ++ [b]
  | .cxw32to63 c b => keyBytes .write c ++ [b]
  | .cxw64to127 c b => keyBytes .write c ++ [b]
  | .cxw128to255 c b => keyBytes .write c ++ [b]
  | .cxr10to11 c => keyBytes .read c
  | .cxr12to15 c => keyBytes .read c
  | .cxr16to31 c => keyBytes .read c
  | .cxr32to63 c => keyBytes .read c
  | .cxr64to127 c => keyBytes .read c
  | .cxr128to255 c => keyBytes .read c

/-- The three bytes of a number whose bit 0 is the least significant bit of the first byte. -/
def bytesOfWord (w : Nat) : List Byte :=
  [BitVec.ofNat 8 w, BitVec.ofNat 8 (w / 256), BitVec.ofNat 8 (w / 65536)]

/-- The instruction that the decoder reads from an instruction whose lowest nbits bits are w and whose bits above are 0,
numbered as spec/opcode_table.json numbers them (the host's fixed name). -/
def decodeTableWord (nbits w : Nat) : Option Instr :=
  match decode (bytesOfWord (w % 2 ^ nbits)) with
  | .ok (i, _) => some i
  | .error _ => none

end Sys2Proof
end

