-- ==== Sys2Proof/Config.lean ====
section
/-! DEFINITION. What an implementation of the block fixes: the parameters of spec/00_scope.md R7 and of
spec/93_implementation_defined.md I1, and the values that `State.reset` takes for them. -/

namespace Sys2Proof

/-- The parameters of R7 that a run never changes, and the optional parameter of I1.
`Params.valid` holds the constraints of R7. Log entry 4. -/
structure Params where
  /-- `P_N`: the number of ring-buffer slots. -/
  slots : Nat
  /-- `P_ID_TAG`: identity byte 1. -/
  idTag : Byte
  /-- `P_MARKER_TAG`: identity byte 2. -/
  markerTag : Byte
  /-- `P_VER_MAJOR`: identity byte 3. -/
  verMajor : Byte
  /-- `P_VER_MINOR`: identity byte 4. -/
  verMinor : Byte
  /-- `P_PERIOD_RESET`: targetPeriod after reset. -/
  periodReset : BitVec 16
  /-- `P_SINGLE_AUTOCLEAR` (I1): the spec's default is false, "not cleared" (R89, C4). -/
  singleAutoclear : Bool
deriving DecidableEq, Repr

/-- The constraints of R7: 2 <= P_N <= 256, P_PERIOD_RESET >= 2. -/
def Params.valid (p : Params) : Bool :=
  2 ≤ p.slots && p.slots ≤ 256 && 2 ≤ p.periodReset.toNat

/-- The two bytes sampled on the port BOOT_RECORD at reset (R7 `P_BOOT_RECORD`, R27, R135). -/
structure BootRecord where
  /-- Record byte 0: the I2C address. -/
  address : Byte
  /-- Record byte 1: the oscillator trim, raw. -/
  trim : Byte
deriving DecidableEq, Repr

namespace Config

/-- `P_UNPACKED_MAX` (R7): samples served by one command 3 read transaction. -/
def unpackedMax : Nat := 7

/-- `P_PACKED_MAX` (R7): samples served by one command 4 read transaction. -/
def packedMax : Nat := 10

/-- The reference value of `P_N` (R7). Log entry 5. -/
def referenceSlots : Nat := 40

/-- The open value of `P_ID_TAG` (D29). DESIGN CHOICE (safe): no value. Log entry 5. -/
opaque idTag : Byte

/-- The open value of `P_MARKER_TAG` (D29). DESIGN CHOICE (safe): no value. Log entry 5. -/
opaque markerTag : Byte

/-- The open value of `P_VER_MAJOR` (D29). DESIGN CHOICE (safe): no value. Log entry 5. -/
opaque verMajor : Byte

/-- The open value of `P_VER_MINOR` (D29). DESIGN CHOICE (safe): no value. Log entry 5. -/
opaque verMinor : Byte

/-- How far `P_PERIOD_RESET` lies above its least value 2 (D35). DESIGN CHOICE (safe): no value. Log entry 5. -/
opaque periodResetAboveMin : Fin 65534

/-- How far byte 0 of `P_BOOT_RECORD` lies above its least value 0x03 (R7: 0x03..0x77).
DESIGN CHOICE (safe): no value. Log entry 6. -/
opaque bootAddressAboveMin : Fin 117

/-- Byte 1 of `P_BOOT_RECORD` (R7: any). DESIGN CHOICE (safe): no value. Log entry 6. -/
opaque bootTrim : Byte

/-- The parameters of `State.reset`: the reference P_N, every open parameter left free. Log entry 5. -/
def params : Params where
  slots := referenceSlots
  idTag := idTag
  markerTag := markerTag
  verMajor := verMajor
  verMinor := verMinor
  periodReset := BitVec.ofNat 16 (2 + periodResetAboveMin.val)
  singleAutoclear := false

/-- The boot record of `State.reset`: any record that R58 accepts. Log entry 6. -/
def bootRecord : BootRecord where
  address := BitVec.ofNat 8 (0x03 + bootAddressAboveMin.val)
  trim := bootTrim

end Config

end Sys2Proof
end

