-- ==== Sys2Proof/Machine/Fields.lean ====
section
/-! DEFINITION. Bit fields, sign extensions and range checks of single bytes (spec/30_encoding.md R42, R50, R51). -/

namespace Sys2Proof.Machine

/-- An accepted I2C address byte: 0x03 <= b <= 0x77, compared as an 8-bit unsigned value (R50). -/
def addressInRange (b : Byte) : Bool :=
  0x03 ≤ b.toNat && b.toNat ≤ 0x77

/-- `b[6:0]` of an address byte (R50, R58). -/
def addressOfByte (b : Byte) : BitVec 7 :=
  b.extractLsb' 0 7

/-- `zext_8` of a 7-bit address (R60). -/
def byteOfAddress (a : BitVec 7) : Byte :=
  a.setWidth 8

/-- `sext_6(b[5:0])`: the 6-bit two's-complement trim in a byte, bits 7:6 ignored (R51, R58). -/
def trimOfByte (b : Byte) : BitVec 6 :=
  b.extractLsb' 0 6

/-- `sext_8(trim)` (R51, R60). -/
def byteOfTrim (t : BitVec 6) : Byte :=
  t.signExtend 8

/-- Bit 0 of the control byte: run (R42). -/
def controlRun (b : Byte) : Bool :=
  b.getLsbD 0

/-- Bits 2:1 of the control byte: mode select (R42). -/
def controlMode (b : Byte) : BitVec 2 :=
  b.extractLsb' 1 2

/-- `zext_8({ctrlMode, ctrlRun})` (R42, R102). -/
def controlByte (mode : BitVec 2) (run : Bool) : Byte :=
  (mode ++ BitVec.ofBool run).setWidth 8

end Sys2Proof.Machine
end

