-- ==== Sys2Proof/Machine/State.lean ====
section
/-! DEFINITION. The state of the block (spec/10_state.md R15..R19), its input events (R92) and outputs (R135), the reasons
a step can stop, and reset (R138). -/

namespace Sys2Proof.Machine

/-- The Sample record {A, B, ov, valid} (R12). -/
structure Sample where
  a : BitVec 10
  b : BitVec 10
  ov : BitVec 3
  valid : Bool
deriving DecidableEq, Repr

/-- What a slot that nothing has written reads as. DESIGN CHOICE (unsafe): the spec leaves the contents of `buf` at reset
unspecified (R18, R139). Log entry 7. -/
def Sample.blank : Sample := ⟨0, 0, 0, false⟩

/-- The ring buffer's slots (R26), as (slot, sample) pairs: slots strictly rising, no pair equal to what an unlisted slot
reads as (`Memory.wf`). Log entry 7. -/
abbrev Memory := List (Nat × Sample)

/-- `busDir` (R15). -/
inductive BusDir where
  | idle
  | write
  | read
deriving DecidableEq, Repr

/-- `mode` (R16). -/
inductive Mode where
  | off
  | single
  | trigger
  | timer
deriving DecidableEq, Repr

/-- `seqPhase` (R17). -/
inductive SeqPhase where
  | idle
  | settleA
  | convA
  | settleB
  | convB
deriving DecidableEq, Repr

/-- The channel of an ADC_START (R135). -/
inductive Channel where
  | a
  | b
deriving DecidableEq, Repr

/-- The input events of R92, each handled by one atomic step. -/
inductive Event where
  /-- A transfer to `activeAddress` begins (R93). -/
  | addrMatch (d : Dir)
  /-- The host wrote a byte (R94). -/
  | byteWritten (b : Byte)
  /-- The host wants the next response byte (R95). -/
  | byteRequested
  /-- One periodic tick (R87). -/
  | tick
  /-- One rising edge on TRIG_IN (R88). -/
  | edge
  /-- The settling delay expired (R73). -/
  | settleDone
  /-- A conversion completed with this result (R74, R75, R76). -/
  | adcDone (v : BitVec 10)
  /-- The loop context takes the commit step (R60). -/
  | commitStep
  /-- Power-on reset, with the record sampled on BOOT_RECORD (R138, R58; log entry 6). -/
  | reset (r : BootRecord)
deriving DecidableEq, Repr

/-- The output events of the block's ports (R135). -/
inductive Output where
  /-- BUS_RDATA: the byte answering a ByteRequested (R95). -/
  | busData (b : Byte)
  /-- SETTLE_ARM: start the settling-delay timer (R72). -/
  | settleArm
  /-- ADC_START(ch): start a conversion of one channel (R73). -/
  | adcStart (ch : Channel)
  /-- PERSIST_WR: PersistWrite(b0, b1) (R59). -/
  | persistWrite (b0 b1 : Byte)
deriving DecidableEq, Repr

/-- The registers of R15..R19, and three fields of the model's own (`params`, `inbox`, `trace`). -/
structure State where
  /-- The model's own: the parameters of R7, which no step changes. Log entry 4. -/
  params : Params
  /-- R15. -/
  activeCommand : Byte
  /-- R15, R96: saturates at 255. -/
  byteIndex : Byte
  /-- R15. -/
  busDir : BusDir
  /-- R15. -/
  periodLo : Byte
  /-- R15. -/
  commitArm : Bool
  /-- R15. -/
  tickSnap : BitVec 32
  /-- R15. -/
  rdEmpty : Bool
  /-- R16. -/
  mode : Mode
  /-- R16. -/
  ctrlRun : Bool
  /-- R16. -/
  ctrlMode : BitVec 2
  /-- R16. -/
  targetPeriod : BitVec 16
  /-- R16. -/
  currentCountdown : BitVec 16
  /-- R16. -/
  cumulativeTicks : BitVec 32
  /-- R16; drives AUX_OUT. -/
  auxOut : Bool
  /-- R16; drives OSC_TRIM. -/
  oscTrimOut : BitVec 6
  /-- R17. -/
  seqPhase : SeqPhase
  /-- R17. -/
  resA : BitVec 10
  /-- R17. -/
  discardInFlight : Bool
  /-- R17. -/
  pendingStart : Bool
  /-- R18. -/
  buf : Memory
  /-- R18: 0..P_N-1. -/
  head : Nat
  /-- R18: 0..P_N-1. -/
  tail : Nat
  /-- R18: saturates at 7. -/
  overrunCount : BitVec 3
  /-- R19; drives OWN_ADDR. -/
  activeAddress : BitVec 7
  /-- R19. -/
  stagedAddress : BitVec 7
  /-- R19. -/
  trim : BitVec 6
  /-- R19; drives COMMIT_REQ. -/
  commitRequested : Bool
  /-- The model's own: the input events not yet handled, the next one first. Log entry 1. -/
  inbox : List Event
  /-- The model's own: the outputs driven so far, oldest first (R59). Log entry 12. -/
  trace : List Output
deriving DecidableEq, Repr

/-- Why the machine stops with a fault. The block has no fault state (R123); the one constructor stands for an access the
spec says cannot exist. -/
inductive Fault where
  /-- Raised by the push (R65) and the peek (R68) when the slot index is not in 0..P_N-1 (R26). Safe: no state that meets
  the invariant of R23 reaches it. Log entry 8. -/
  | slotOutOfRange
deriving DecidableEq, Repr

/-- Why an input event has no step (R10 `refuse`, R128). -/
inductive Refusal where
  /-- Raised by an arm of exec whose instruction has no meaning yet; no arm does. Safe. -/
  | notModelled (mnemonic : String)
  /-- R94: ByteWritten when busDir is not Write. The spec refuses it (D2). Safe. -/
  | byteWrittenOutsideWrite
  /-- R95: ByteRequested when busDir is not Read. The spec refuses it (D2). Safe. -/
  | byteRequestedOutsideRead
  /-- R73: SettleDone when no settling delay is armed. The spec refuses it (D32). Safe. -/
  | settleNotArmed
  /-- R76: AdcDone when no conversion was started. The spec refuses it (D32). Safe. -/
  | adcNotStarted
  /-- R58: a reset whose boot record byte 0 is outside 0x03..0x77. The spec refuses it (D23). Safe. -/
  | bootRecordInvalid
  /-- Raised by a data byte whose key no row decodes. No step reaches it, since the rows cover every key (R57). Safe.
  Log entry 18. -/
  | keyNotDecoded
deriving DecidableEq, Repr

/-- The state after reset for given parameters and a given boot record: the reset columns of R15..R19, then the boot load
of R58. A record that R58 refuses is stopped in the handler of the Reset event. Log entries 7 and 9 name the values the
spec leaves unspecified (`buf`, `resA`). -/
def State.resetWith (p : Params) (r : BootRecord) : State where
  params := p
  activeCommand := 0x00
  byteIndex := 0
  busDir := .idle
  periodLo := 0x00
  commitArm := false
  tickSnap := 0
  rdEmpty := false
  mode := .off
  ctrlRun := false
  ctrlMode := 0b00
  targetPeriod := p.periodReset
  currentCountdown := 0
  cumulativeTicks := 0
  auxOut := false
  oscTrimOut := trimOfByte r.trim
  seqPhase := .idle
  resA := 0
  discardInFlight := false
  pendingStart := false
  buf := []
  head := 0
  tail := 0
  overrunCount := 0
  activeAddress := addressOfByte r.address
  stagedAddress := addressOfByte r.address
  trim := trimOfByte r.trim
  commitRequested := false
  inbox := []
  trace := []

/-- The machine right after reset (R138), with the parameters and the boot record of Config. -/
def State.reset : State :=
  State.resetWith Config.params Config.bootRecord

end Sys2Proof.Machine
end

