-- ==== Sys2Proof/Machine/Flags.lean ====
section
/-! DEFINITION. The status flags and saturating counters of spec/10_state.md R20, R96 and R9. The block has no condition
codes. -/

namespace Sys2Proof.Machine

/-- `sat7(v)` = min(v, 7) (R9). -/
def sat7 (v : Nat) : Nat := min v 7

/-- `sat7(overrunCount + 1)` as the 3-bit register holds it (R65, R72). -/
def overrunBump (ov : BitVec 3) : BitVec 3 :=
  BitVec.ofNat 3 (sat7 (ov.toNat + 1))

/-- `min(byteIndex + 1, 255)` (R94, R95, R96). -/
def indexBump (i : Byte) : Byte :=
  BitVec.ofNat 8 (min (i.toNat + 1) 255)

/-- The sequencer is busy (R17). -/
def State.busy (s : State) : Bool :=
  s.seqPhase != .idle

/-- `head == tail`: the buffer is empty (R18). -/
def State.isEmpty (s : State) : Bool :=
  s.head == s.tail

/-- `commitArm` after byte 1 of a command 9 write: the byte is 0x55 (R119). -/
def armsCommit (b : Byte) : Bool :=
  b == 0x55

/-- Byte 2 of a command 9 write completes the magic sequence: armed, and the byte is 0xAA (R119). -/
def completesCommit (armed : Bool) (b : Byte) : Bool :=
  armed && b == 0xAA

end Sys2Proof.Machine
end

