-- ==== Sys2Proof/Machine/Operands.lean ====
section
/-! DEFINITION. The data formats of spec/30_encoding.md R42..R53: how multi-byte values are assembled from bytes and how
values are served as bytes. Byte order is decided here, once (R28). -/

namespace Sys2Proof.Machine

/-- The mode a control byte with the run bit set selects (R42): 00 and 01 Single, 10 Trigger, 11 Timer. -/
def modeSelected (code : BitVec 2) : Mode :=
  if code = 0b11 then .timer
  else if code = 0b10 then .trigger
  else .single

/-- The 16-bit value {high, low} of a command 1 write (R43, R53). -/
def periodOfBytes (hi lo : Byte) : BitVec 16 :=
  hi ++ lo

/-- `max(v, 2)` (R43). -/
def clampPeriod (v : BitVec 16) : BitVec 16 :=
  if v.toNat < 2 then 2 else v

/-- The byte at position i of a command 1 read (R43, R104). -/
def periodByte (v : BitVec 16) (i : Nat) : Byte :=
  if i = 1 then v.extractLsb' 0 8
  else if i = 2 then v.extractLsb' 8 8
  else 0x00

/-- The byte at position i of a command 6 read: `tickSnap[8i-1 : 8i-8]` for 1 <= i <= 4 (R48). -/
def tickByte (snap : BitVec 32) (i : Nat) : Byte :=
  if 1 ≤ i ∧ i ≤ 4 then snap.extractLsb' (8 * i - 8) 8 else 0x00

/-- The byte at position i of a command 7 read (R49, R116). -/
def identityByte (p : Params) (i : Nat) : Byte :=
  if i = 1 then p.idTag
  else if i = 2 then p.markerTag
  else if i = 3 then p.verMajor
  else if i = 4 then p.verMinor
  else 0x00

/-- The two serializations of a Sample (R13 "Packed/unpacked encoding"). -/
inductive SampleLayout where
  /-- Command 3 (R45). -/
  | unpacked
  /-- Command 4 (R46). -/
  | packed
deriving DecidableEq, Repr

/-- L, the bytes of one sample cycle (R68). -/
def SampleLayout.cycle : SampleLayout → Nat
  | .unpacked => 4
  | .packed => 3

/-- KMAX, the samples one read transaction serves (R68). -/
def SampleLayout.maxSamples : SampleLayout → Nat
  | .unpacked => Config.unpackedMax
  | .packed => Config.packedMax

/-- `Unpacked(s, p)`: the byte at cycle position p (R45; the places of valid and ov in byte 4 are the spec's decision D7,
log entry 15). -/
def unpackedByte (x : Sample) (p : Nat) : Byte :=
  if p = 1 then x.a.extractLsb' 0 8
  else if p = 2 then (x.a.extractLsb' 8 2).setWidth 8
  else if p = 3 then x.b.extractLsb' 0 8
  else if p = 4 then (BitVec.ofBool x.valid ++ x.ov ++ x.b.extractLsb' 8 2).setWidth 8
  else 0x00

/-- P = {valid, ov[2:0], B[9:0], A[9:0]} (R46; the spec's decision D8, log entry 15). -/
def packedWord (x : Sample) : BitVec 24 :=
  BitVec.ofBool x.valid ++ x.ov ++ x.b ++ x.a

/-- `Packed(s, p)`: the byte at cycle position p, least significant byte first (R46). -/
def packedByte (x : Sample) (p : Nat) : Byte :=
  if 1 ≤ p ∧ p ≤ 3 then (packedWord x).extractLsb' (8 * p - 8) 8 else 0x00

/-- The byte of a sample at cycle position p, in a layout (R68). -/
def SampleLayout.byte (l : SampleLayout) (x : Sample) (p : Nat) : Byte :=
  match l with
  | .unpacked => unpackedByte x p
  | .packed => packedByte x p

end Sys2Proof.Machine
end

