-- ==== Sys2Proof/Machine/Ops.lean ====
section
/-! DEFINITION. The named operations over the ring memory, the ring buffer (spec/41_ring_buffer.md), the conversion sequencer
(spec/42_conversion.md), the sampling-mode machine (spec/43_mode_fsm.md) and the settings (spec/40_settings.md).

TAKING AN EXCEPTION AND RETURNING FROM ONE: the block raises no exception, takes no trap and has no trap return (R123, R131,
R132), so there is no such operation. -/

namespace Sys2Proof.Machine

/-- The outcome of a step of this machine. -/
abbrev Result := Host.Outcome State Fault Refusal

/-- Applies an update to the next state of an outcome, if it has one. -/
def mapNext (f : State → State) (o : Result) : Result :=
  match o with
  | .next s => .next (f s)
  | .fault r => .fault r
  | .refused r => .refused r

/-! ### The ring memory (R26) -/

/-- `MemRead(i)`: the sample in a slot (R10). -/
def Memory.read (m : Memory) (i : Nat) : Sample :=
  match m with
  | [] => Sample.blank
  | (j, x) :: rest => if j = i then x else Memory.read rest i

/-- `MemWrite(i, x)`: the memory with sample x in slot i, in canonical form (R10). -/
def Memory.write (m : Memory) (i : Nat) (x : Sample) : Memory :=
  match m with
  | [] => if x = Sample.blank then [] else [(i, x)]
  | (j, y) :: rest =>
    if i < j then
      if x = Sample.blank then (j, y) :: rest else (i, x) :: (j, y) :: rest
    else if i = j then
      if x = Sample.blank then rest else (i, x) :: rest
    else (j, y) :: Memory.write rest i x

/-- Every listed slot lies above the bound. -/
def Memory.above (m : Memory) (i : Nat) : Bool :=
  m.all fun c => i < c.1

/-- The canonical form: slots strictly rising, no pair equal to what an unlisted slot reads as. -/
def Memory.wf (m : Memory) : Bool :=
  match m with
  | [] => true
  | (i, x) :: rest => x != Sample.blank && Memory.above rest i && Memory.wf rest

/-- Every listed slot is a slot of the buffer: 0..P_N-1 (R26). -/
def Memory.within (m : Memory) (slots : Nat) : Bool :=
  m.all fun c => c.1 < slots

/-! ### Outputs (R135) -/

/-- Drives an output event: it is appended to the trace (R59; log entry 12). -/
def State.drive (s : State) (o : Output) : State :=
  { s with trace := s.trace ++ [o] }

/-- `emit(b)`: the byte this step returns to the bus (R10). -/
def State.emit (s : State) (b : Byte) : State :=
  s.drive (.busData b)

/-- `PersistWrite(b0, b1)` (R59). -/
def State.persistWrite (s : State) (b0 b1 : Byte) : State :=
  s.drive (.persistWrite b0 b1)

/-- OWN_ADDR: the address the bus interface matches (R135). -/
def State.ownAddr (s : State) : BitVec 7 := s.activeAddress

/-- AUX_OUT: the auxiliary sync output (R90, R135). -/
def State.auxOutPort (s : State) : Bool := s.auxOut

/-- OSC_TRIM: the oscillator-trim output (R135). -/
def State.oscTrimPort (s : State) : BitVec 6 := s.oscTrimOut

/-- COMMIT_REQ: the commit request seen by the loop context (R135). -/
def State.commitReqPort (s : State) : Bool := s.commitRequested

/-! ### The ring buffer (R65..R70) -/

/-- The slot after slot i: `(i + 1) mod P_N` (R65, R69). -/
def State.slotAfter (s : State) (i : Nat) : Nat :=
  (i + 1) % s.params.slots

/-- Count: `(head - tail) mod P_N`, on integers, in 0..P_N-1 (R67, R9). -/
def State.count (s : State) : Nat :=
  (((s.head : Int) - (s.tail : Int)) % (s.params.slots : Int)).toNat

/-- Push (R65): a full buffer rejects the sample and counts it; otherwise the sample goes to slot `head` with the overrun
count embedded. A `head` that is no slot faults (R26; log entry 8). -/
def State.push (s : State) (a b : BitVec 10) : Result :=
  if s.slotAfter s.head = s.tail then
    .next { s with overrunCount := overrunBump s.overrunCount }
  else if s.head < s.params.slots then
    .next { s with
      buf := s.buf.write s.head { a := a, b := b, ov := s.overrunCount, valid := true }
      head := s.slotAfter s.head
      overrunCount := 0 }
  else .fault .slotOutOfRange

/-- Tail advance (R69): in Single mode `tail` is pinned. -/
def State.advanceTail (s : State) : State :=
  { s with tail := if s.mode = .single then s.tail else s.slotAfter s.tail }

/-- The latch of emptiness at the first position of a sample cycle (R68, D9). -/
def State.latchEmpty (s : State) : State :=
  { s with rdEmpty := s.isEmpty }

/-- Cycle position p of byte index i, for i >= 1 (R55, R68). -/
def SampleLayout.position (l : SampleLayout) (i : Nat) : Nat :=
  (i - 1) % l.cycle + 1

/-- Peek past the latch, at cycle position p: a cycle latched empty serves zero, any other serves the sample at `tail` and
advances after its last byte (R68). A `tail` that is no slot faults (R26; log entry 8). -/
def State.serve (s : State) (l : SampleLayout) (p : Nat) : Result :=
  if s.rdEmpty then .next (s.emit 0x00)
  else if s.tail < s.params.slots then
    let byte := l.byte (s.buf.read s.tail) p
    .next ((if p = l.cycle then s.advanceTail else s).emit byte)
  else .fault .slotOutOfRange

/-- Peek (R68) at position `byteIndex`, its byte emitted to the bus. -/
def State.peek (s : State) (l : SampleLayout) : Result :=
  let i := s.byteIndex.toNat
  if i < 1 ∨ l.cycle * l.maxSamples < i then .next (s.emit 0x00)
  else
    let p := l.position i
    (if p = 1 then s.latchEmpty else s).serve l p

/-- FIFO reset (R70): the slots' contents are not changed. -/
def State.fifoReset (s : State) : State :=
  { s with head := 0, tail := 0, overrunCount := 0 }

/-! ### The conversion sequencer (R72..R79) -/

/-- `RequestStart()` (R72). -/
def State.requestStart (s : State) : State :=
  if s.seqPhase = .idle then
    { s with seqPhase := .settleA }.drive .settleArm
  else if s.discardInFlight then
    { s with pendingStart := true }
  else
    { s with overrunCount := overrunBump s.overrunCount }

/-- `Finish()` (R77). -/
def State.finish (s : State) : State :=
  if s.pendingStart then
    { s with discardInFlight := false, pendingStart := false, seqPhase := .settleA }.drive .settleArm
  else
    { s with discardInFlight := false, seqPhase := .idle }

/-- The optional auto-clear of the run bit when a sample is pushed in Single mode (I1, R89). Log entry 13. -/
def State.autoclearRun (s : State) : State :=
  { s with ctrlRun := s.ctrlRun && !(s.params.singleAutoclear && s.mode == .single) }

/-- Settling delay expired (R73). -/
def State.settleExpired (s : State) : Result :=
  match s.seqPhase with
  | .settleA => .next ({ s with seqPhase := .convA }.drive (.adcStart .a))
  | .settleB => .next ({ s with seqPhase := .convB }.drive (.adcStart .b))
  | .idle => .refused .settleNotArmed
  | .convA => .refused .settleNotArmed
  | .convB => .refused .settleNotArmed

/-- Channel A conversion complete (R74). -/
def State.channelADone (s : State) (v : BitVec 10) : State :=
  if s.discardInFlight then { s with resA := v }.finish
  else { s with resA := v, seqPhase := .settleB }.drive .settleArm

/-- Channel B conversion complete (R75). -/
def State.channelBDone (s : State) (v : BitVec 10) : Result :=
  if s.discardInFlight then .next s.finish
  else mapNext (fun t => t.autoclearRun.finish) (s.push s.resA v)

/-- A conversion result arrives (R74, R75, R76). -/
def State.conversionDone (s : State) (v : BitVec 10) : Result :=
  match s.seqPhase with
  | .convA => .next (s.channelADone v)
  | .convB => s.channelBDone v
  | .idle => .refused .adcNotStarted
  | .settleA => .refused .adcNotStarted
  | .settleB => .refused .adcNotStarted

/-! ### The sampling-mode machine (R81..R88) -/

/-- Off entry (R83). -/
def State.offEntry (s : State) : State :=
  { s with mode := .off }.fifoReset

/-- Single entry (R84). -/
def State.singleEntry (s : State) : State :=
  { s with mode := .single }.fifoReset.requestStart

/-- Trigger entry (R85). -/
def State.triggerEntry (s : State) : State :=
  { s with mode := .trigger }

/-- Timer entry (R86). -/
def State.timerEntry (s : State) : State :=
  { s with
    mode := .timer
    currentCountdown := s.targetPeriod
    cumulativeTicks := 0
    oscTrimOut := s.trim }

/-- What a control write does before the entry actions: the control bits are stored, a pending start is dropped, a
conversion in flight is marked for discard (R81, R78). -/
def State.latchControl (s : State) (b : Byte) : State :=
  { s with
    ctrlRun := controlRun b
    ctrlMode := controlMode b
    pendingStart := false
    discardInFlight := s.busy || s.discardInFlight }

/-- The entry actions of a mode (R83..R86). -/
def State.enter (s : State) (m : Mode) : State :=
  match m with
  | .off => s.offEntry
  | .single => s.singleEntry
  | .trigger => s.triggerEntry
  | .timer => s.timerEntry

/-- Control write (R81). -/
def State.controlWrite (s : State) (b : Byte) : State :=
  (s.latchControl b).enter (if controlRun b then modeSelected (controlMode b) else .off)

/-- Expiry of the countdown (R87). -/
def State.expire (s : State) : State :=
  { s with
    currentCountdown := s.targetPeriod
    cumulativeTicks := s.cumulativeTicks + 1
    auxOut := !s.auxOut }.requestStart

/-- Periodic tick (R87); the countdown is a 16-bit register (R9; log entry 19). -/
def State.tick (s : State) : State :=
  if s.mode = .timer then
    if s.currentCountdown - 1 = 0 then s.expire
    else { s with currentCountdown := s.currentCountdown - 1 }
  else s

/-- Trigger edge (R88). -/
def State.edge (s : State) : State :=
  if s.mode = .trigger then s.requestStart else s

/-! ### Settings (R58..R62) and reset (R138) -/

/-- Commit step (R60): enabled only when `commitRequested` is 1; otherwise the loop context idles (log entry 11). -/
def State.commit (s : State) : State :=
  if s.commitRequested then
    { s.persistWrite (byteOfAddress s.stagedAddress) (byteOfTrim s.trim) with
      activeAddress := s.stagedAddress
      commitRequested := false }
  else s

/-- Reset (R138) with the boot load of R58. The events not yet delivered and the outputs already driven are the
environment's: they stay (log entries 6, 12). -/
def State.powerOn (s : State) (r : BootRecord) : Result :=
  if addressInRange r.address then
    .next { State.resetWith s.params r with inbox := s.inbox, trace := s.trace }
  else .refused .bootRecordInvalid

/-! ### The dispatcher (R93, R96) -/

/-- Address match (R93): `activeCommand` is not changed. -/
def State.matchAddress (s : State) (d : Dir) : State :=
  { s with
    busDir := match d with | .write => .write | .read => .read
    byteIndex := 0
    commitArm := false
    rdEmpty := false }

/-- `byteIndex <- min(byteIndex + 1, 255)` (R94, R95, R96). -/
def State.advanceIndex (s : State) : State :=
  { s with byteIndex := indexBump s.byteIndex }

end Sys2Proof.Machine
end

