-- ==== Sys2Proof/Machine/ControlCommands.lean ====
section
/-! DEFINITION. Command 0, Control (spec/45_commands.md R101, R102). The position i is the register `byteIndex`. -/

namespace Sys2Proof.Machine

/-- C0.W (R101): a control write at position 1, ignored elsewhere. -/
def execC0wControl (b : Byte) (s : State) : Result :=
  .next (if s.byteIndex = 1 then s.controlWrite b else s)

/-- C0.R (R102): the control bits last written, at position 1. -/
def execC0rControl (s : State) : Result :=
  .next (s.emit (if s.byteIndex = 1 then controlByte s.ctrlMode s.ctrlRun else 0x00))

end Sys2Proof.Machine
end

