-- ==== Sys2Proof/Machine/DataCommands.lean ====
section
/-! DEFINITION. Command 2, Data count, command 3, Unpacked data, and command 4, Packed data (spec/45_commands.md
R105..R110). -/

namespace Sys2Proof.Machine

/-- C2.W (R105): no effect at any position. -/
def execC2wCount (_b : Byte) (s : State) : Result :=
  .next s

/-- C2.R (R106): the count at position 1 (R44, R67). -/
def execC2rCount (s : State) : Result :=
  .next (s.emit (if s.byteIndex = 1 then BitVec.ofNat 8 s.count else 0x00))

/-- C3.W (R107): no effect at any position. -/
def execC3wUnpacked (_b : Byte) (s : State) : Result :=
  .next s

/-- C3.R (R108): Peek with L = 4, KMAX = P_UNPACKED_MAX. -/
def execC3rUnpacked (s : State) : Result :=
  s.peek .unpacked

/-- C4.W (R109): no effect at any position. -/
def execC4wPacked (_b : Byte) (s : State) : Result :=
  .next s

/-- C4.R (R110): Peek with L = 3, KMAX = P_PACKED_MAX. -/
def execC4rPacked (s : State) : Result :=
  s.peek .packed

end Sys2Proof.Machine
end

