-- ==== Sys2Proof/Machine/IdentityCommands.lean ====
section
/-! DEFINITION. Command 7, Identity (spec/45_commands.md R115, R116). -/

namespace Sys2Proof.Machine

/-- C7.W (R115): no effect at any position. -/
def execC7wIdent (_b : Byte) (s : State) : Result :=
  .next s

/-- C7.R (R116): the four identity bytes. -/
def execC7rIdent (s : State) : Result :=
  .next (s.emit (identityByte s.params s.byteIndex.toNat))

end Sys2Proof.Machine
end

