-- ==== Sys2Proof/Machine/SettingsCommands.lean ====
section
/-! DEFINITION. Command 5, Slave address stage, command 8, Oscillator trim, and command 9, Commit (spec/45_commands.md
R111, R112, R117..R120). -/

namespace Sys2Proof.Machine

/-- C5.W (R111): an address in 0x03..0x77 is staged at position 1. -/
def execC5wAddrStage (b : Byte) (s : State) : Result :=
  .next (if s.byteIndex = 1 ∧ addressInRange b then { s with stagedAddress := addressOfByte b } else s)

/-- C5.R (R112): zero at every position. -/
def execC5rAddrStage (s : State) : Result :=
  .next (s.emit 0x00)

/-- C8.W (R117): the trim at position 1. -/
def execC8wTrim (b : Byte) (s : State) : Result :=
  .next (if s.byteIndex = 1 then { s with trim := trimOfByte b } else s)

/-- C8.R (R118): the trim, sign-extended to 8 bits, at position 1. -/
def execC8rTrim (s : State) : Result :=
  .next (s.emit (if s.byteIndex = 1 then byteOfTrim s.trim else 0x00))

/-- C9.W (R119): byte 1 arms on 0x55, byte 2 requests the commit on 0xAA if armed and disarms. -/
def execC9wCommit (b : Byte) (s : State) : Result :=
  .next (
    if s.byteIndex = 1 then { s with commitArm := armsCommit b }
    else if s.byteIndex = 2 then
      { s with commitRequested := s.commitRequested || completesCommit s.commitArm b, commitArm := false }
    else s)

/-- C9.R (R120): zero at every position. -/
def execC9rCommit (s : State) : Result :=
  .next (s.emit 0x00)

end Sys2Proof.Machine
end

