-- ==== Sys2Proof/Machine/TimingCommands.lean ====
section
/-! DEFINITION. Command 1, Timer period, and command 6, Timer tick counter (spec/45_commands.md R103, R104, R113, R114). -/

namespace Sys2Proof.Machine

/-- C1.W (R103): byte 1 is staged, byte 2 assembles and clamps the period in one step. -/
def execC1wPeriod (b : Byte) (s : State) : Result :=
  .next (
    if s.byteIndex = 1 then { s with periodLo := b }
    else if s.byteIndex = 2 then { s with targetPeriod := clampPeriod (periodOfBytes b s.periodLo) }
    else s)

/-- C1.R (R104). -/
def execC1rPeriod (s : State) : Result :=
  .next (s.emit (periodByte s.targetPeriod s.byteIndex.toNat))

/-- C6.W (R113): no effect at any position. -/
def execC6wTicks (_b : Byte) (s : State) : Result :=
  .next s

/-- The snapshot of command 6, taken at position 1 (R114, R35). -/
def State.snapshotTicks (s : State) : State :=
  { s with tickSnap := if s.byteIndex = 1 then s.cumulativeTicks else s.tickSnap }

/-- C6.R (R114). -/
def execC6rTicks (s : State) : Result :=
  .next (s.snapshotTicks.emit (tickByte s.snapshotTicks.tickSnap s.byteIndex.toNat))

end Sys2Proof.Machine
end

