-- ==== Sys2Proof/Machine/UnrecognizedCommands.lean ====
section
/-! DEFINITION. Commands 10..255, unrecognized (spec/45_commands.md R121, R122; E1 of R124): data bytes written are ignored,
reads return zero. The command code itself was stored by the command byte (R94). -/

namespace Sys2Proof.Machine

/-- CX.W for commands 10..11 (R121): no effect at any position. -/
def execCxw10to11 (_c _b : Byte) (s : State) : Result :=
  .next s

/-- CX.W for commands 12..15 (R121): no effect at any position. -/
def execCxw12to15 (_c _b : Byte) (s : State) : Result :=
  .next s

/-- CX.W for commands 16..31 (R121): no effect at any position. -/
def execCxw16to31 (_c _b : Byte) (s : State) : Result :=
  .next s

/-- CX.W for commands 32..63 (R121): no effect at any position. -/
def execCxw32to63 (_c _b : Byte) (s : State) : Result :=
  .next s

/-- CX.W for commands 64..127 (R121): no effect at any position. -/
def execCxw64to127 (_c _b : Byte) (s : State) : Result :=
  .next s

/-- CX.W for commands 128..255 (R121): no effect at any position. -/
def execCxw128to255 (_c _b : Byte) (s : State) : Result :=
  .next s

/-- CX.R for commands 10..11 (R122): zero at every position. -/
def execCxr10to11 (_c : Byte) (s : State) : Result :=
  .next (s.emit 0x00)

/-- CX.R for commands 12..15 (R122): zero at every position. -/
def execCxr12to15 (_c : Byte) (s : State) : Result :=
  .next (s.emit 0x00)

/-- CX.R for commands 16..31 (R122): zero at every position. -/
def execCxr16to31 (_c : Byte) (s : State) : Result :=
  .next (s.emit 0x00)

/-- CX.R for commands 32..63 (R122): zero at every position. -/
def execCxr32to63 (_c : Byte) (s : State) : Result :=
  .next (s.emit 0x00)

/-- CX.R for commands 64..127 (R122): zero at every position. -/
def execCxr64to127 (_c : Byte) (s : State) : Result :=
  .next (s.emit 0x00)

/-- CX.R for commands 128..255 (R122): zero at every position. -/
def execCxr128to255 (_c : Byte) (s : State) : Result :=
  .next (s.emit 0x00)

end Sys2Proof.Machine
end

