-- ==== Sys2Proof/Machine/Dispatch.lean ====
section
/-! DEFINITION. WriteData and ReadData (spec/44_dispatcher.md R97, R98): one arm per row of the opcode table. -/

namespace Sys2Proof.Machine

/-- The meaning of an instruction: the write or read rule of its row, at position `byteIndex` (R97, R98). -/
def exec (i : Instr) (s : State) : Host.Outcome State Fault Refusal :=
  match i with
  | .c0wControl b => Sys2Proof.Machine.execC0wControl b s
  | .c0rControl => Sys2Proof.Machine.execC0rControl s
  | .c1wPeriod b => Sys2Proof.Machine.execC1wPeriod b s
  | .c1rPeriod => Sys2Proof.Machine.execC1rPeriod s
  | .c2wCount b => Sys2Proof.Machine.execC2wCount b s
  | .c2rCount => Sys2Proof.Machine.execC2rCount s
  | .c3wUnpacked b => Sys2Proof.Machine.execC3wUnpacked b s
  | .c3rUnpacked => Sys2Proof.Machine.execC3rUnpacked s
  | .c4wPacked b => Sys2Proof.Machine.execC4wPacked b s
  | .c4rPacked => Sys2Proof.Machine.execC4rPacked s
  | .c5wAddrStage b => Sys2Proof.Machine.execC5wAddrStage b s
  | .c5rAddrStage => Sys2Proof.Machine.execC5rAddrStage s
  | .c6wTicks b => Sys2Proof.Machine.execC6wTicks b s
  | .c6rTicks => Sys2Proof.Machine.execC6rTicks s
  | .c7wIdent b => Sys2Proof.Machine.execC7wIdent b s
  | .c7rIdent => Sys2Proof.Machine.execC7rIdent s
  | .c8wTrim b => Sys2Proof.Machine.execC8wTrim b s
  | .c8rTrim => Sys2Proof.Machine.execC8rTrim s
  | .c9wCommit b => Sys2Proof.Machine.execC9wCommit b s
  | .c9rCommit => Sys2Proof.Machine.execC9rCommit s
  | .cxw10to11 c b => Sys2Proof.Machine.execCxw10to11 c b s
  | .cxw12to15 c b => Sys2Proof.Machine.execCxw12to15 c b s
  | .cxw16to31 c b => Sys2Proof.Machine.execCxw16to31 c b s
  | .cxw32to63 c b => Sys2Proof.Machine.execCxw32to63 c b s
  | .cxw64to127 c b => Sys2Proof.Machine.execCxw64to127 c b s
  | .cxw128to255 c b => Sys2Proof.Machine.execCxw128to255 c b s
  | .cxr10to11 c => Sys2Proof.Machine.execCxr10to11 c s
  | .cxr12to15 c => Sys2Proof.Machine.execCxr12to15 c s
  | .cxr16to31 c => Sys2Proof.Machine.execCxr16to31 c s
  | .cxr32to63 c => Sys2Proof.Machine.execCxr32to63 c s
  | .cxr64to127 c => Sys2Proof.Machine.execCxr64to127 c s
  | .cxr128to255 c => Sys2Proof.Machine.execCxr128to255 c s

end Sys2Proof.Machine
end

