-- ==== Sys2Proof/Machine/Handlers.lean ====
section
/-! DEFINITION. The handlers of the input events (spec/44_dispatcher.md R92). A data byte's handler lays out the key of the
current direction and command, decodes it and runs the instruction (R57, R97, R98; log entry 10). -/

namespace Sys2Proof.Machine

/-- The bytes of the instruction that a data byte b written now stands for: the key {0, activeCommand}, then b. -/
def State.writeBytes (s : State) (b : Byte) : List Byte :=
  keyBytes .write s.activeCommand ++ [b]

/-- The bytes of the instruction that a byte request stands for: the key {1, activeCommand}. -/
def State.readBytes (s : State) : List Byte :=
  keyBytes .read s.activeCommand

/-- Decodes an instruction and runs it. -/
def runBytes (bytes : List Byte) (s : State) : Result :=
  match decode bytes with
  | .ok (i, _) => exec i s
  | .error _ => .refused .keyNotDecoded

/-- Byte written (R94): refused outside a write transaction, the command byte at index 0, else a data byte. -/
def State.byteWritten (s : State) (b : Byte) : Result :=
  if s.busDir = .write then
    if s.byteIndex = 0 then .next { s with activeCommand := b }.advanceIndex
    else mapNext State.advanceIndex (runBytes (s.writeBytes b) s)
  else .refused .byteWrittenOutsideWrite

/-- Byte requested (R95): refused outside a read transaction; the index advances before the byte is produced. -/
def State.byteRequested (s : State) : Result :=
  if s.busDir = .read then runBytes s.readBytes s.advanceIndex
  else .refused .byteRequestedOutsideRead

/-- The handler of an input event (R92). -/
def State.handle (s : State) (e : Event) : Result :=
  match e with
  | .addrMatch d => .next (s.matchAddress d)
  | .byteWritten b => s.byteWritten b
  | .byteRequested => s.byteRequested
  | .tick => .next s.tick
  | .edge => .next s.edge
  | .settleDone => s.settleExpired
  | .adcDone v => s.conversionDone v
  | .commitStep => .next s.commit
  | .reset r => s.powerOn r

/-- Places the data-byte event of a write instruction next in the inbox, with the transaction state it needs: direction
Write, the command in `activeCommand`, a data position in `byteIndex` (R94; log entry 3). -/
def State.withWriteNext (s : State) (cmd b : Byte) : State :=
  { s with
    busDir := .write
    activeCommand := cmd
    byteIndex := if s.byteIndex = 0 then 1 else s.byteIndex
    inbox := .byteWritten b :: s.inbox }

/-- Places a byte request next in the inbox, with the transaction state it needs: direction Read, the command in
`activeCommand` (R95; log entry 3). -/
def State.withReadNext (s : State) (cmd : Byte) : State :=
  { s with
    busDir := .read
    activeCommand := cmd
    inbox := .byteRequested :: s.inbox }

/-- Places the instruction with these bytes (Decode.lean) next; bytes that hold no 9-bit key place nothing. -/
def State.withBytesNext (s : State) (bytes : List Byte) : State :=
  match bytes with
  | cmd :: hi :: rest =>
    if hi = 0x00 then s.withWriteNext cmd (rest.headD 0x00)
    else if hi = 0x01 then s.withReadNext cmd
    else s
  | _ => s

end Sys2Proof.Machine
end

