-- ==== Sys2Proof/Machine/Step.lean ====
section
/-! DEFINITION. One step: the next input event is handled (spec/00_scope.md R11, spec/20_memory.md R33). -/

namespace Sys2Proof.Machine

/-- One atomic step: the next event of the inbox is taken and handled. With no event delivered the block waits, unchanged
(R138 "it waits for input events"; log entry 2). -/
def step (s : State) : Host.Outcome State Fault Refusal :=
  match s.inbox with
  | [] => .next s
  | e :: rest => { s with inbox := rest }.handle e

/-- The state whose next step runs the instruction with these bits (the host's fixed name; log entry 3). -/
def State.withFetchWord (s : State) (nbits w : Nat) : State :=
  s.withBytesNext (bytesOfWord (w % 2 ^ nbits))

end Sys2Proof.Machine
end

