-- ==== Sys2Proof/Laws/Decode.lean ====
section
/-! SUPPORT. The opcode table's rows and which row a command selects (R57). -/

namespace Sys2Proof

/-- The number of rows that select a key. -/
def rowsSelecting (key : BitVec 9) : Nat :=
  (opcodeRows.filter fun r => r.selects key).length

/-- The place of a command's row among the rows of one direction: commands 0..9, then the six ranges of R57. -/
def commandRow (c : Byte) : Nat :=
  if c.toNat < 10 then c.toNat
  else if c.toNat ≤ 11 then 10
  else if c.toNat ≤ 15 then 11
  else if c.toNat ≤ 31 then 12
  else if c.toNat ≤ 63 then 13
  else if c.toNat ≤ 127 then 14
  else 15

set_option maxRecDepth 4000 in
/-- In the write direction a command selects its row among the first sixteen. -/
theorem findIdx_write : ∀ c : Byte,
    opcodeRows.findIdx? (fun r => r.selects (opcodeKey 0#1 c)) = some (commandRow c) := by
  decide

set_option maxRecDepth 4000 in
/-- In the read direction a command selects its row among the last sixteen. -/
theorem findIdx_read : ∀ c : Byte,
    opcodeRows.findIdx? (fun r => r.selects (opcodeKey 1#1 c)) = some (16 + commandRow c) := by
  decide

/-- The row of a key, from the place of the first row that selects it. -/
theorem rowOf_eq_getElem {key : BitVec 9} {k : Nat}
    (h : opcodeRows.findIdx? (fun r => r.selects key) = some k) : rowOf key = opcodeRows[k]? := by
  rw [List.findIdx?_eq_some_iff_getElem] at h
  obtain ⟨hk, hs, hmin⟩ := h
  rw [List.getElem?_eq_getElem hk]
  unfold rowOf
  rw [List.find?_eq_some_iff_getElem]
  exact ⟨hs, k, hk, rfl, fun j hj => by simpa using hmin j hj⟩

/-- The row of a write key. -/
theorem rowOf_write (c : Byte) : rowOf (opcodeKey 0#1 c) = opcodeRows[commandRow c]? :=
  rowOf_eq_getElem (findIdx_write c)

/-- The row of a read key. -/
theorem rowOf_read (c : Byte) : rowOf (opcodeKey 1#1 c) = opcodeRows[16 + commandRow c]? :=
  rowOf_eq_getElem (findIdx_read c)

/-- What a write row builds from its command and data byte; none at a read row. -/
def OpcodeRow.buildWrite (r : OpcodeRow) (c b : Byte) : Option Instr :=
  match r.form with
  | .write build => some (build c b)
  | .read _ => none

/-- What a read row builds from its command; none at a write row. -/
def OpcodeRow.buildRead (r : OpcodeRow) (c : Byte) : Option Instr :=
  match r.form with
  | .write _ => none
  | .read build => some (build c)

/-- The instruction of a key, with the data byte b in a write row (R57). -/
def instrOfKey (key : BitVec 9) (b : Byte) : Option Instr :=
  (rowOf key).map fun r =>
    match r.form with
    | .write build => build (key.extractLsb' 0 8) b
    | .read build => build (key.extractLsb' 0 8)

/-- The command byte of a key. -/
theorem extract_opcodeKey (d : BitVec 1) (c : Byte) : (opcodeKey d c).extractLsb' 0 8 = c := by
  revert d c
  decide

/-- The instruction of a write key is what its row builds. -/
theorem instrOfKey_write {c b : Byte} {i : Instr}
    (h : (opcodeRows[commandRow c]?).bind (fun r => r.buildWrite c b) = some i) :
    instrOfKey (opcodeKey 0#1 c) b = some i := by
  obtain ⟨r, hr, hb⟩ := Option.bind_eq_some_iff.1 h
  unfold instrOfKey
  rw [rowOf_write, hr, Option.map_some, extract_opcodeKey]
  unfold OpcodeRow.buildWrite at hb
  cases hf : r.form with
  | write build =>
    rw [hf] at hb
    exact hb
  | read build =>
    rw [hf] at hb
    cases hb

/-- The instruction of a read key is what its row builds. -/
theorem instrOfKey_read {c : Byte} {i : Instr} (b : Byte)
    (h : (opcodeRows[16 + commandRow c]?).bind (fun r => r.buildRead c) = some i) :
    instrOfKey (opcodeKey 1#1 c) b = some i := by
  obtain ⟨r, hr, hb⟩ := Option.bind_eq_some_iff.1 h
  unfold instrOfKey
  rw [rowOf_read, hr, Option.map_some, extract_opcodeKey]
  unfold OpcodeRow.buildRead at hb
  cases hf : r.form with
  | write build =>
    rw [hf] at hb
    cases hb
  | read build =>
    rw [hf] at hb
    exact hb

/-- A write key followed by its data byte decodes to what its row builds. -/
theorem decode_write {c b : Byte} {i : Instr} (rest : List Byte)
    (h : (opcodeRows[commandRow c]?).bind (fun r => r.buildWrite c b) = some i) :
    decode (c :: 0x00 :: b :: rest) = .ok (i, rest) := by
  have hk : opcodeKey (BitVec.extractLsb' 0 1 (0x00 : Byte)) c = opcodeKey 0#1 c := rfl
  obtain ⟨r, hr, hb⟩ := Option.bind_eq_some_iff.1 h
  unfold decode
  simp only
  rw [if_pos (by decide), hk, rowOf_write, hr]
  unfold OpcodeRow.buildWrite at hb
  cases hf : r.form with
  | write build =>
    rw [hf] at hb
    injection hb with hb
    rw [← hb]
    simp only [hf]
  | read build =>
    rw [hf] at hb
    cases hb

/-- A read key decodes to what its row builds. -/
theorem decode_read {c : Byte} {i : Instr} (rest : List Byte)
    (h : (opcodeRows[16 + commandRow c]?).bind (fun r => r.buildRead c) = some i) :
    decode (c :: 0x01 :: rest) = .ok (i, rest) := by
  have hk : opcodeKey (BitVec.extractLsb' 0 1 (0x01 : Byte)) c = opcodeKey 1#1 c := rfl
  obtain ⟨r, hr, hb⟩ := Option.bind_eq_some_iff.1 h
  unfold decode
  simp only
  rw [if_pos (by decide), hk, rowOf_read, hr]
  unfold OpcodeRow.buildRead at hb
  cases hf : r.form with
  | write build =>
    rw [hf] at hb
    cases hb
  | read build =>
    rw [hf] at hb
    injection hb with hb
    rw [← hb]
    simp only [hf]

/-- A command is one of 0..9 or lies in one of the six ranges of R57. -/
theorem command_cases (c : Byte) :
    (c = 0 ∨ c = 1 ∨ c = 2 ∨ c = 3 ∨ c = 4 ∨ c = 5 ∨ c = 6 ∨ c = 7 ∨ c = 8 ∨ c = 9) ∨
    (codeIn 10 11 c = true ∧ commandRow c = 10) ∨ (codeIn 12 15 c = true ∧ commandRow c = 11) ∨
    (codeIn 16 31 c = true ∧ commandRow c = 12) ∨ (codeIn 32 63 c = true ∧ commandRow c = 13) ∨
    (codeIn 64 127 c = true ∧ commandRow c = 14) ∨ (codeIn 128 255 c = true ∧ commandRow c = 15) := by
  revert c
  decide

end Sys2Proof
end

