-- ==== Sys2Proof/Machine/Bus.lean ====
section
/-! DEFINITION. The bus interface around the block (spec/20_memory.md R24, spec/30_encoding.md R38) and the host program
notation (R56). Outside the step: the block takes exactly the events of R92. Log entry 16. -/

namespace Sys2Proof.Machine

/-- What appears on the wire within a transfer (R38). -/
inductive WireItem where
  /-- The address byte that begins a transfer: address in bits 7:1, direction in bit 0. -/
  | address (w : Byte)
  /-- A byte from the host. -/
  | written (b : Byte)
  /-- The host clocks a byte out of the device. -/
  | requested
deriving DecidableEq, Repr

/-- The address byte of a transfer (R38): bits 7:1 the address, bit 0 the direction, 0 = write, 1 = read. -/
def addressByte (a : BitVec 7) (d : Dir) : Byte :=
  a ++ (match d with | .write => 0#1 | .read => 1#1)

/-- The direction bit of an address byte (R38). -/
def directionOf (w : Byte) : Dir :=
  if w.getLsbD 0 then .read else .write

/-- The bus interface: whether the current transfer is the block's, before and after the item, and the event it delivers.
A transfer to another address delivers nothing, its bytes included (R24, R38). -/
def busInterface (own : BitVec 7) (selected : Bool) (w : WireItem) : Bool × Option Event :=
  match w with
  | .address a =>
    if a.extractLsb' 1 7 = own then (true, some (.addrMatch (directionOf a))) else (false, none)
  | .written b => (selected, if selected then some (.byteWritten b) else none)
  | .requested => (selected, if selected then some .byteRequested else none)

/-- `W c, b1, ..., bk` (R56): a write transaction. -/
def hostWrite (c : Byte) (data : List Byte) : List Event :=
  .addrMatch .write :: .byteWritten c :: data.map .byteWritten

/-- `R k` (R56): a read transaction of k bytes. -/
def hostRead (k : Nat) : List Event :=
  .addrMatch .read :: List.replicate k .byteRequested

/-- `RD c, k` (R56): `W c`, then `R k`. -/
def hostReadCommand (c : Byte) (k : Nat) : List Event :=
  hostWrite c [] ++ hostRead k

/-- `CONV a, b` (R56): SETTLE; ADC a; SETTLE; ADC b. -/
def conversion (a b : BitVec 10) : List Event :=
  [.settleDone, .adcDone a, .settleDone, .adcDone b]

/-- The steps of a list of events, handled one after the other from a state. -/
def runEvents (s : State) (es : List Event) : Result :=
  Host.Core.run Sys2Proof.core es.length { s with inbox := es }

end Sys2Proof.Machine
end

