-- ==== Sys2Proof/Safety.lean ====
section
/-! DEFINITION. What counts as a safe state and a safe run: the invariant of spec/10_state.md R23 and the admission of input
events of spec/60_exceptions.md R128, R129. -/

namespace Sys2Proof.Machine

/-- The next byte requested lies inside a sample cycle that has begun, in a read of command 3 or 4 (R55, R68). -/
def State.inCycle (s : State) : Prop :=
  s.busDir = .read ∧
    ((s.activeCommand = 0x03 ∧ s.byteIndex.toNat % 4 ≠ 0 ∧ s.byteIndex.toNat < 28) ∨
     (s.activeCommand = 0x04 ∧ s.byteIndex.toNat % 3 ≠ 0 ∧ s.byteIndex.toNat < 30))

/-- The invariant of every reachable state. Clauses named after R23's items, with the clauses that make it inductive: the
conditions on Off and Single mode and on a sample cycle in progress (DEDUCED from R68, R78, R83, R84). -/
structure State.Inv (s : State) : Prop where
  /-- R7: the parameters meet their constraints. -/
  paramsValid : s.params.valid = true
  /-- The ring memory is in canonical form (the model's own). -/
  memoryCanonical : s.buf.wf = true
  /-- R26: only the slots 0..P_N-1 exist. -/
  memoryWithin : s.buf.within s.params.slots = true
  /-- R23.1. -/
  headSlot : s.head < s.params.slots
  /-- R23.1. -/
  tailSlot : s.tail < s.params.slots
  /-- R23.3: every held sample has valid = 1. -/
  heldValid : ∀ k < s.count, (s.buf.read ((s.tail + k) % s.params.slots)).valid = true
  /-- R23.4. -/
  periodMin : 2 ≤ s.targetPeriod.toNat
  /-- R23.5. -/
  countdownLive : s.mode = .timer → 1 ≤ s.currentCountdown.toNat
  /-- R23.6. -/
  pendingDiscards : s.pendingStart = true → s.discardInFlight = true
  /-- R23.6. -/
  discardBusy : s.discardInFlight = true → s.seqPhase ≠ .idle
  /-- R23.7. -/
  singleCount : s.mode = .single → s.count ≤ 1
  /-- In Single mode a conversion that will push, or a pending one, finds the buffer empty (R84). -/
  singleEmpty : s.mode = .single →
    (s.seqPhase ≠ .idle ∧ s.discardInFlight = false) ∨ s.pendingStart = true → s.head = s.tail
  /-- R106: the count is 0 in Off mode. -/
  offEmpty : s.mode = .off → s.head = s.tail
  /-- In Off mode a conversion in flight is marked for discard and none is pending (R78, R83). -/
  offQuiet : s.mode = .off → s.pendingStart = false ∧ (s.seqPhase ≠ .idle → s.discardInFlight = true)
  /-- R23.8. -/
  stagedLegal : 0x03 ≤ s.stagedAddress.toNat ∧ s.stagedAddress.toNat ≤ 0x77
  /-- R23.8. -/
  activeLegal : 0x03 ≤ s.activeAddress.toNat ∧ s.activeAddress.toNat ≤ 0x77
  /-- A cycle that did not find the buffer empty keeps finding it so (R68). -/
  cycleHeld : s.inCycle → s.rdEmpty = false → s.head ≠ s.tail

/-- The events that have a step in a state (R128, R129, R58). A commit step with the flag clear is not refused (R128). -/
def State.accepts (s : State) (e : Event) : Bool :=
  match e with
  | .addrMatch _ => true
  | .byteWritten _ => s.busDir == .write
  | .byteRequested => s.busDir == .read
  | .tick => true
  | .edge => true
  | .settleDone => s.seqPhase == .settleA || s.seqPhase == .settleB
  | .adcDone _ => s.seqPhase == .convA || s.seqPhase == .convB
  | .commitStep => true
  | .reset r => addressInRange r.address

/-- The next event, if there is one, has a step. -/
def State.acceptsNext (s : State) : Bool :=
  match s.inbox with
  | [] => true
  | e :: _ => s.accepts e

/-- A run that is not over: a conversion is in flight (R79) or a commit is requested (R61). -/
def State.unfinished (s : State) : Bool :=
  s.busy || s.commitRequested

end Sys2Proof.Machine
end

