-- ==== Sys2Proof/Certificates/Slice0/Obligations.lean ====
section
/-! DEFINITION. The statements for the provers. Each docstring names the rules of spec/ it formalises. A clause that rests on
a choice of the model says so and names the log entry (notes/assumptions/<n>.md). -/

open Sys2Proof Sys2Proof.Machine

/-! ### Reset -/

/-- R138 and R58: a Reset event with a valid boot record leaves every register at its reset value, with the settings of the
record; afterwards ticks and edges have no effect, and an event of an abandoned conversion is refused. An invalid record is
refused. (`buf` and `resA`, which the spec leaves unspecified, are not stated.) -/
def Obligations.ResetEventLoadsEveryRegister : Prop :=
  ∀ (s : State) (r : BootRecord) (rest : List Event), s.inbox = .reset r :: rest →
    (0x03 ≤ r.address.toNat ∧ r.address.toNat ≤ 0x77 →
      ∃ t, step s = .next t ∧
        t.activeCommand = 0x00 ∧ t.byteIndex = 0 ∧ t.busDir = .idle ∧ t.periodLo = 0x00 ∧ t.commitArm = false ∧
        t.tickSnap = 0 ∧ t.rdEmpty = false ∧
        t.mode = .off ∧ t.ctrlRun = false ∧ t.ctrlMode = 0b00 ∧ t.targetPeriod = s.params.periodReset ∧
        t.currentCountdown = 0 ∧ t.cumulativeTicks = 0 ∧ t.auxOut = false ∧ t.oscTrimOut = t.trim ∧
        t.seqPhase = .idle ∧ t.discardInFlight = false ∧ t.pendingStart = false ∧
        t.head = 0 ∧ t.tail = 0 ∧ t.overrunCount = 0 ∧
        t.activeAddress = r.address.extractLsb' 0 7 ∧ t.stagedAddress = r.address.extractLsb' 0 7 ∧
        t.trim = r.trim.extractLsb' 0 6 ∧ t.commitRequested = false ∧
        (∀ later, step { t with inbox := .tick :: later } = .next { t with inbox := later }) ∧
        (∀ later, step { t with inbox := .edge :: later } = .next { t with inbox := later }) ∧
        (∀ later, step { t with inbox := .settleDone :: later } = .refused .settleNotArmed) ∧
        (∀ v later, step { t with inbox := .adcDone v :: later } = .refused .adcNotStarted)) ∧
    (¬(0x03 ≤ r.address.toNat ∧ r.address.toNat ≤ 0x77) → step s = .refused .bootRecordInvalid)

/-- The model's machine starts in a state that meets the invariant, and so does the reset state of every valid parameter
set and boot record. The values of `State.reset`'s parameters and record are the model's choice (log entries 5, 6). -/
def Obligations.ResetStateMeetsInvariant : Prop :=
  State.reset.Inv ∧
    ∀ (p : Params) (r : BootRecord), p.valid = true → addressInRange r.address = true → (State.resetWith p r).Inv

/-! ### Whole-machine rules -/

/-- 10_state.md section 10 (R23, which the spec derives): every step keeps the invariant. The clauses that make it inductive
(`singleEmpty`, `offEmpty`, `offQuiet`, `cycleHeld`) are DEDUCED (log entry 20). -/
def Obligations.EveryStepKeepsInvariant : Prop :=
  ∀ s t : State, s.Inv → step s = .next t → t.Inv

/-- 60_exceptions.md section 1 ("There are no fatal conditions"): a state that meets the invariant never faults. The fault is
the model's own (log entry 8). -/
def Obligations.SafeStateNeverFaults : Prop :=
  ∀ (s : State) (f : Fault), s.Inv → step s ≠ .fault f

/-- R128: a step is refused exactly for the five events a correct environment never delivers, each under its own name. -/
def Obligations.RefusedExactlyOnStrayEvents : Prop :=
  ∀ (s : State) (why : Refusal), step s = .refused why ↔
    (∃ b rest, s.inbox = .byteWritten b :: rest ∧ s.busDir ≠ .write ∧ why = .byteWrittenOutsideWrite) ∨
    (∃ rest, s.inbox = .byteRequested :: rest ∧ s.busDir ≠ .read ∧ why = .byteRequestedOutsideRead) ∨
    (∃ rest, s.inbox = .settleDone :: rest ∧ s.seqPhase ≠ .settleA ∧ s.seqPhase ≠ .settleB ∧
      why = .settleNotArmed) ∨
    (∃ v rest, s.inbox = .adcDone v :: rest ∧ s.seqPhase ≠ .convA ∧ s.seqPhase ≠ .convB ∧ why = .adcNotStarted) ∨
    (∃ r rest, s.inbox = .reset r :: rest ∧ ¬(0x03 ≤ r.address.toNat ∧ r.address.toNat ≤ 0x77) ∧
      why = .bootRecordInvalid)

/-- R82's first half and the source's "Entered only via the control-byte write protocol": a step that changes the mode handles
the data byte at position 1 of a command 0 write, or a Reset. -/
def Obligations.ModeChangesOnlyByControlWriteOrReset : Prop :=
  ∀ s t : State, step s = .next t → t.mode ≠ s.mode →
    (∃ b rest, s.inbox = .byteWritten b :: rest ∧ s.busDir = .write ∧ s.activeCommand = 0x00 ∧ s.byteIndex = 1) ∨
    (∃ r rest, s.inbox = .reset r :: rest)

/-- R24 "The address in effect changes only at the commit step": any other step that changes it is a Reset. -/
def Obligations.AddressChangesOnlyByCommitOrReset : Prop :=
  ∀ s t : State, step s = .next t → t.activeAddress ≠ s.activeAddress →
    (∃ rest, s.inbox = .commitStep :: rest ∧ s.commitRequested = true ∧ t.activeAddress = s.stagedAddress) ∨
    (∃ r rest, s.inbox = .reset r :: rest)

/-- R27 "writes it only at the commit step": a step adds a PersistWrite to the trace only when it handles a CommitStep with
the flag set, and the outputs driven before stay. That they stay at a Reset step too is the model's choice (log entry 12). -/
def Obligations.PersistWriteOnlyAtCommitStep : Prop :=
  ∀ s t : State, step s = .next t →
    ∃ added, t.trace = s.trace ++ added ∧
      ∀ b0 b1, .persistWrite b0 b1 ∈ added →
        (∃ rest, s.inbox = .commitStep :: rest) ∧ s.commitRequested = true ∧
          b0.toNat = s.stagedAddress.toNat ∧ b1.toInt = s.trim.toInt

/-- 43_mode_fsm.md (R90, which the spec derives): auxOut changes only at a Timer-mode expiry, where it toggles, and at a
Reset. -/
def Obligations.AuxTogglesOnlyAtExpiry : Prop :=
  ∀ s t : State, step s = .next t → t.auxOut ≠ s.auxOut →
    (∃ rest, s.inbox = .tick :: rest ∧ s.mode = .timer ∧ s.currentCountdown = 1) ∨
    (∃ r rest, s.inbox = .reset r :: rest)

/-- 42_conversion.md (R79 "No cancellation"): a step that returns a busy sequencer to Idle handles an AdcDone, or a Reset. -/
def Obligations.SequencerIdlesOnlyOnResult : Prop :=
  ∀ s t : State, step s = .next t → s.seqPhase ≠ .idle → t.seqPhase = .idle →
    (∃ v rest, s.inbox = .adcDone v :: rest) ∨ (∃ r rest, s.inbox = .reset r :: rest)

/-- R26 "Only the push ... writes a slot, and only at index head": a step that changes what a slot reads is the AdcDone of a
conversion's phase B that is not discarded, and the slot is `head` (or the step is a Reset, whose buffer contents are the
model's choice, log entry 7). -/
def Obligations.SlotsChangeOnlyByPush : Prop :=
  ∀ (s t : State) (i : Nat), step s = .next t → t.buf.read i ≠ s.buf.read i →
    ((∃ v rest, s.inbox = .adcDone v :: rest) ∧ s.seqPhase = .convB ∧ s.discardInFlight = false ∧ i = s.head) ∨
    (∃ r rest, s.inbox = .reset r :: rest)

/-- 20_memory.md section 2 ("only a command 1 write changes it"): a step that changes the period handles the data byte at
position 2 of a command 1 write, or a Reset. -/
def Obligations.PeriodChangesOnlyByPeriodWriteOrReset : Prop :=
  ∀ s t : State, step s = .next t → t.targetPeriod ≠ s.targetPeriod →
    (∃ b rest, s.inbox = .byteWritten b :: rest ∧ s.busDir = .write ∧ s.activeCommand = 0x01 ∧ s.byteIndex = 2) ∨
    (∃ r rest, s.inbox = .reset r :: rest)

/-! ### Decoding -/

/-- The decoder reads an instruction from the front of a byte string exactly when the string begins with the encoding of
that well-formed instruction. The byte layout of the key is the model's (log entry 10). -/
def Obligations.DecodeEncodeInverse : Prop :=
  ∀ (i : Instr) (bytes rest : List Byte),
    decode bytes = .ok (i, rest) ↔ i.wellFormed = true ∧ bytes = encode i ++ rest

/-- 30_encoding.md (R57): the table has 32 rows, and every 9-bit key is selected by exactly one of them. -/
def Obligations.EveryKeyHasOneRow : Prop :=
  opcodeRows.length = 32 ∧ ∀ key : BitVec 9, rowsSelecting key = 1

/-- A few words of the opcode table, numbered as the table numbers them, decode to their rows' instructions; the data byte of a
write row stands in bits 23:16 (the model's layout, log entry 10). -/
def Obligations.TableWordsDecode : Prop :=
  decodeTableWord 16 0x000 = some (.c0wControl 0x00) ∧ decodeTableWord 16 0x100 = some .c0rControl ∧
  decodeTableWord 16 0x001 = some (.c1wPeriod 0x00) ∧ decodeTableWord 16 0x103 = some .c3rUnpacked ∧
  decodeTableWord 24 0xAA0009 = some (.c9wCommit 0xAA) ∧ decodeTableWord 16 0x107 = some .c7rIdent ∧
  decodeTableWord 16 0x00B = some (.cxw10to11 0x0B 0x00) ∧ decodeTableWord 16 0x1FF = some (.cxr128to255 0xFF) ∧
  decodeTableWord 16 0x200 = none

/-- 44_dispatcher.md (R97, R98): the command code selects the row of the write rule and of the read rule. The byte layout of
the key is the model's (log entry 10). -/
def Obligations.DispatchByCommand : Prop :=
  ∀ c b : Byte,
    decode [c, 0x00, b] = .ok (
      if c = 0 then .c0wControl b else if c = 1 then .c1wPeriod b else if c = 2 then .c2wCount b
      else if c = 3 then .c3wUnpacked b else if c = 4 then .c4wPacked b else if c = 5 then .c5wAddrStage b
      else if c = 6 then .c6wTicks b else if c = 7 then .c7wIdent b else if c = 8 then .c8wTrim b
      else if c = 9 then .c9wCommit b else if c ≤ 11 then .cxw10to11 c b else if c ≤ 15 then .cxw12to15 c b
      else if c ≤ 31 then .cxw16to31 c b else if c ≤ 63 then .cxw32to63 c b else if c ≤ 127 then .cxw64to127 c b
      else .cxw128to255 c b, []) ∧
    decode [c, 0x01] = .ok (
      if c = 0 then .c0rControl else if c = 1 then .c1rPeriod else if c = 2 then .c2rCount
      else if c = 3 then .c3rUnpacked else if c = 4 then .c4rPacked else if c = 5 then .c5rAddrStage
      else if c = 6 then .c6rTicks else if c = 7 then .c7rIdent else if c = 8 then .c8rTrim
      else if c = 9 then .c9rCommit else if c ≤ 11 then .cxr10to11 c else if c ≤ 15 then .cxr12to15 c
      else if c ≤ 31 then .cxr16to31 c else if c ≤ 63 then .cxr32to63 c else if c ≤ 127 then .cxr64to127 c
      else .cxr128to255 c, [])

/-- A step runs the decoded instruction: where the next event is a data byte of the transaction in progress and the bytes of
its key (and, in a write, the byte itself) decode to a well-formed instruction, step is exec of it, with byteIndex advanced
after a written byte and before a requested one (R94, R95, R96). The byte layout of the key is the model's (log entry 10). -/
def Obligations.StepRunsDecodedInstruction : Prop :=
  ∀ (s : State) (i : Instr) (rest : List Event), i.wellFormed = true →
    (∀ b, s.inbox = .byteWritten b :: rest → s.busDir = .write → s.byteIndex ≠ 0 →
      decode [s.activeCommand, 0x00, b] = .ok (i, []) →
      (∀ t, exec i { s with inbox := rest } = .next t →
        step s = .next { t with byteIndex := BitVec.ofNat 8 (min (t.byteIndex.toNat + 1) 255) }) ∧
      (∀ f, exec i { s with inbox := rest } = .fault f → step s = .fault f) ∧
      (∀ r, exec i { s with inbox := rest } = .refused r → step s = .refused r)) ∧
    (s.inbox = .byteRequested :: rest → s.busDir = .read →
      decode [s.activeCommand, 0x01] = .ok (i, []) →
      step s = exec i { s with inbox := rest, byteIndex := BitVec.ofNat 8 (min (s.byteIndex.toNat + 1) 255) })

/-! ### The dispatcher's events -/

/-- 44_dispatcher.md (R93, its pseudocode): an address match sets the direction, restarts the transaction-scoped state and
changes nothing else. -/
def Obligations.AddressMatchStartsTransaction : Prop :=
  ∀ (s : State) (d : Dir) (rest : List Event), s.inbox = .addrMatch d :: rest →
    step s = .next { s with
      inbox := rest
      busDir := if d = .write then .write else .read
      byteIndex := 0
      commitArm := false
      rdEmpty := false }

/-- R94: a written byte is refused outside a write transaction; the first one becomes the command, whatever its value; each
later one runs the write rule of the command, and the index advances by one up to 255. -/
def Obligations.ByteWrittenHandled : Prop :=
  ∀ (s : State) (b : Byte) (rest : List Event), s.inbox = .byteWritten b :: rest →
    (s.busDir ≠ .write → step s = .refused .byteWrittenOutsideWrite) ∧
    (s.busDir = .write → s.byteIndex = 0 →
      step s = .next { s with inbox := rest, activeCommand := b, byteIndex := 1 }) ∧
    (s.busDir = .write → s.byteIndex ≠ 0 →
      ∃ i t, i.wellFormed = true ∧ instrOfKey (opcodeKey 0#1 s.activeCommand) b = some i ∧
        exec i { s with inbox := rest } = .next t ∧ t.byteIndex = s.byteIndex ∧
        step s = .next { t with byteIndex := if s.byteIndex = 255 then 255 else s.byteIndex + 1 })

/-- R95: a requested byte is refused outside a read transaction; otherwise the index advances by one up to 255 and the read
rule of the command answers, in the same step, with exactly one byte on the bus. (`tail` a slot of the buffer: R26.) -/
def Obligations.ByteRequestedHandled : Prop :=
  ∀ (s : State) (rest : List Event), s.inbox = .byteRequested :: rest →
    (s.busDir ≠ .read → step s = .refused .byteRequestedOutsideRead) ∧
    (s.busDir = .read → s.tail < s.params.slots →
      ∃ i t b, i.wellFormed = true ∧ (∀ b, instrOfKey (opcodeKey 1#1 s.activeCommand) b = some i) ∧
        exec i { s with
          inbox := rest
          byteIndex := if s.byteIndex = 255 then 255 else s.byteIndex + 1 } = .next t ∧
        t.trace = s.trace ++ [.busData b] ∧ step s = .next t)

/-! ### Sequencer, mode machine, settings -/

/-- R72: a start request begins a conversion when idle, is latched once while a conversion is being discarded, and is dropped
and counted (up to 7) otherwise. -/
def Obligations.StartRequestByPhase : Prop :=
  ∀ s : State,
    (s.seqPhase = .idle →
      s.requestStart = { s with seqPhase := .settleA, trace := s.trace ++ [.settleArm] }) ∧
    (s.seqPhase ≠ .idle → s.discardInFlight = true → s.requestStart = { s with pendingStart := true }) ∧
    (s.seqPhase ≠ .idle → s.discardInFlight = false →
      s.requestStart = { s with overrunCount := if s.overrunCount = 7 then 7 else s.overrunCount + 1 })

/-- R87: a tick counts down in Timer mode only; at zero the countdown reloads, the counter increments modulo 2^32, auxOut
toggles and a start is requested. -/
def Obligations.TickHandled : Prop :=
  ∀ (s : State) (rest : List Event), s.inbox = .tick :: rest →
    (s.mode ≠ .timer → step s = .next { s with inbox := rest }) ∧
    (s.mode = .timer → s.currentCountdown ≠ 1 →
      step s = .next { s with inbox := rest, currentCountdown := s.currentCountdown - 1 }) ∧
    (s.mode = .timer → s.currentCountdown = 1 →
      step s = .next { s with
        inbox := rest
        currentCountdown := s.targetPeriod
        cumulativeTicks := BitVec.ofNat 32 ((s.cumulativeTicks.toNat + 1) % 2 ^ 32)
        auxOut := !s.auxOut }.requestStart)

/-- R88: an edge requests a start in Trigger mode and has no effect in any other mode. -/
def Obligations.EdgeHandled : Prop :=
  ∀ (s : State) (rest : List Event), s.inbox = .edge :: rest →
    (s.mode = .trigger → step s = .next { s with inbox := rest }.requestStart) ∧
    (s.mode ≠ .trigger → step s = .next { s with inbox := rest })

/-- R73: an expired settling delay starts the conversion of the phase's channel; with no delay armed the event is refused. -/
def Obligations.SettleDoneHandled : Prop :=
  ∀ (s : State) (rest : List Event), s.inbox = .settleDone :: rest →
    (s.seqPhase = .settleA →
      step s = .next { s with inbox := rest, seqPhase := .convA, trace := s.trace ++ [.adcStart .a] }) ∧
    (s.seqPhase = .settleB →
      step s = .next { s with inbox := rest, seqPhase := .convB, trace := s.trace ++ [.adcStart .b] }) ∧
    (s.seqPhase ≠ .settleA → s.seqPhase ≠ .settleB → step s = .refused .settleNotArmed)

/-- 42_conversion.md (R74, R76, R77, and R75 for a discarded conversion): the result of channel A is latched and phase B
armed, or, when discarded, the sequence finishes, taking a pending start; a discarded result of channel B finishes the
sequence and pushes nothing; a result in any other phase is refused. -/
def Obligations.ConversionResultHandled : Prop :=
  ∀ (s : State) (v : BitVec 10) (rest : List Event), s.inbox = .adcDone v :: rest →
    (s.seqPhase = .convA → s.discardInFlight = false →
      step s = .next { s with
        inbox := rest, resA := v, seqPhase := .settleB, trace := s.trace ++ [.settleArm] }) ∧
    (s.seqPhase = .convA → s.discardInFlight = true →
      step s = .next { s with
        inbox := rest, resA := v, discardInFlight := false, pendingStart := false
        seqPhase := if s.pendingStart then .settleA else .idle
        trace := if s.pendingStart then s.trace ++ [.settleArm] else s.trace }) ∧
    (s.seqPhase = .convB → s.discardInFlight = true →
      step s = .next { s with
        inbox := rest, discardInFlight := false, pendingStart := false
        seqPhase := if s.pendingStart then .settleA else .idle
        trace := if s.pendingStart then s.trace ++ [.settleArm] else s.trace }) ∧
    (s.seqPhase ≠ .convA → s.seqPhase ≠ .convB → step s = .refused .adcNotStarted)

/-- 42_conversion.md (R75, with R65 and R77): the result of channel B of a conversion that is not discarded pushes {resA, v, overrunCount, 1} at
`head`, or is rejected by a full buffer and counted up to 7; then the sequence finishes. `head` is a slot (R23.1). With the
optional parameter P_SINGLE_AUTOCLEAR set (I1; log entry 13) the push in Single mode also clears ctrlRun. -/
def Obligations.PairedResultPushed : Prop :=
  ∀ (s : State) (v : BitVec 10) (rest : List Event), s.inbox = .adcDone v :: rest →
    s.seqPhase = .convB → s.discardInFlight = false → s.head < s.params.slots →
    ((s.head + 1) % s.params.slots = s.tail →
      step s = .next { s with
        inbox := rest
        overrunCount := if s.overrunCount = 7 then 7 else s.overrunCount + 1
        ctrlRun := s.ctrlRun && !(s.params.singleAutoclear && s.mode == .single)
        pendingStart := false
        seqPhase := if s.pendingStart then .settleA else .idle
        trace := if s.pendingStart then s.trace ++ [.settleArm] else s.trace }) ∧
    ((s.head + 1) % s.params.slots ≠ s.tail →
      step s = .next { s with
        inbox := rest
        buf := s.buf.write s.head { a := s.resA, b := v, ov := s.overrunCount, valid := true }
        head := (s.head + 1) % s.params.slots
        overrunCount := 0
        ctrlRun := s.ctrlRun && !(s.params.singleAutoclear && s.mode == .single)
        pendingStart := false
        seqPhase := if s.pendingStart then .settleA else .idle
        trace := if s.pendingStart then s.trace ++ [.settleArm] else s.trace })

/-- R65: push on the ring buffer alone. A full buffer keeps its slots and its head and counts the loss; otherwise the slot at
`head` reads the sample, every other slot reads as before, and the count is cleared. -/
def Obligations.PushStoresOrCounts : Prop :=
  ∀ (s : State) (a b : BitVec 10), s.buf.wf = true → s.head < s.params.slots →
    ((s.head + 1) % s.params.slots = s.tail →
      s.push a b = .next { s with overrunCount := if s.overrunCount = 7 then 7 else s.overrunCount + 1 }) ∧
    ((s.head + 1) % s.params.slots ≠ s.tail →
      ∃ m, s.push a b = .next { s with
          buf := m, head := (s.head + 1) % s.params.slots, overrunCount := 0 } ∧
        m.read s.head = { a := a, b := b, ov := s.overrunCount, valid := true } ∧
        (∀ i, i ≠ s.head → m.read i = s.buf.read i))

/-- 40_settings.md (R60): a commit step with the flag set writes the record {stagedAddress, trim}, applies the staged address
and clears the flag; with the flag clear nothing changes but that the event is taken: the model's choice (log entry 11). -/
def Obligations.CommitStepHandled : Prop :=
  ∀ (s : State) (rest : List Event), s.inbox = .commitStep :: rest →
    (s.commitRequested = true →
      step s = .next { s with
        inbox := rest
        trace := s.trace ++ [.persistWrite (s.stagedAddress.zeroExtend 8) (s.trim.signExtend 8)]
        activeAddress := s.stagedAddress
        commitRequested := false }) ∧
    (s.commitRequested = false → step s = .next { s with inbox := rest })

/-! ### The commands -/

/-- R101 and R81: key 0x000. A control write at position 1 stores the run bit and the mode select, drops a pending start,
marks a conversion in flight for discard and enters the mode selected; at every other position it does nothing. -/
def Obligations.ControlWriteEntersMode : Prop :=
  ∀ (b : Byte) (s : State),
    instrOfKey 0x000 b = some (.c0wControl b) ∧
    (s.byteIndex ≠ 1 → exec (.c0wControl b) s = .next s) ∧
    (s.byteIndex = 1 → b.getLsbD 0 = false →
      exec (.c0wControl b) s = .next { s with
        ctrlRun := false, ctrlMode := b.extractLsb' 1 2, pendingStart := false
        discardInFlight := if s.seqPhase = .idle then s.discardInFlight else true
        mode := .off, head := 0, tail := 0, overrunCount := 0 }) ∧
    (s.byteIndex = 1 → b.getLsbD 0 = true → b.getLsbD 2 = false →
      exec (.c0wControl b) s = .next { s with
        ctrlRun := true, ctrlMode := b.extractLsb' 1 2
        pendingStart := if s.seqPhase = .idle then false else true
        discardInFlight := if s.seqPhase = .idle then s.discardInFlight else true
        seqPhase := if s.seqPhase = .idle then .settleA else s.seqPhase
        trace := if s.seqPhase = .idle then s.trace ++ [.settleArm] else s.trace
        mode := .single, head := 0, tail := 0, overrunCount := 0 }) ∧
    (s.byteIndex = 1 → b.getLsbD 0 = true → b.getLsbD 2 = true → b.getLsbD 1 = false →
      exec (.c0wControl b) s = .next { s with
        ctrlRun := true, ctrlMode := 0b10, pendingStart := false
        discardInFlight := if s.seqPhase = .idle then s.discardInFlight else true
        mode := .trigger }) ∧
    (s.byteIndex = 1 → b.getLsbD 0 = true → b.getLsbD 2 = true → b.getLsbD 1 = true →
      exec (.c0wControl b) s = .next { s with
        ctrlRun := true, ctrlMode := 0b11, pendingStart := false
        discardInFlight := if s.seqPhase = .idle then s.discardInFlight else true
        mode := .timer, currentCountdown := s.targetPeriod, cumulativeTicks := 0, oscTrimOut := s.trim })

/-- R102: key 0x100. The control bits last written are served at position 1, zero elsewhere; no register changes. -/
def Obligations.ControlReadBack : Prop :=
  ∀ s : State,
    (∀ b, instrOfKey 0x100 b = some .c0rControl) ∧
    exec .c0rControl s = .next { s with
      trace := s.trace ++ [.busData (
        if s.byteIndex = 1 then BitVec.ofNat 8 (2 * s.ctrlMode.toNat + s.ctrlRun.toNat) else 0x00)] }

/-- R103: key 0x001. Byte 1 is staged, byte 2 assembles {byte 2, byte 1} and stores its maximum with 2, every other position
is ignored. -/
def Obligations.PeriodWriteByPosition : Prop :=
  ∀ (b : Byte) (s : State),
    instrOfKey 0x001 b = some (.c1wPeriod b) ∧
    (s.byteIndex = 1 → exec (.c1wPeriod b) s = .next { s with periodLo := b }) ∧
    (s.byteIndex = 2 → exec (.c1wPeriod b) s = .next { s with
      targetPeriod := BitVec.ofNat 16 (max (256 * b.toNat + s.periodLo.toNat) 2) }) ∧
    (s.byteIndex ≠ 1 → s.byteIndex ≠ 2 → exec (.c1wPeriod b) s = .next s)

/-- R104: key 0x101. The period's low byte at position 1, its high byte at position 2, zero elsewhere. -/
def Obligations.PeriodReadBytes : Prop :=
  ∀ s : State,
    (∀ b, instrOfKey 0x101 b = some .c1rPeriod) ∧
    exec .c1rPeriod s = .next { s with
      trace := s.trace ++ [.busData (
        if s.byteIndex = 1 then BitVec.ofNat 8 (s.targetPeriod.toNat % 256)
        else if s.byteIndex = 2 then BitVec.ofNat 8 (s.targetPeriod.toNat / 256)
        else 0x00)] }

/-- R106: key 0x102. The count (head - tail) mod P_N at position 1, zero elsewhere. (P_N >= 2: R7.) -/
def Obligations.CountReadAtPositionOne : Prop :=
  ∀ s : State, 2 ≤ s.params.slots →
    (∀ b, instrOfKey 0x102 b = some .c2rCount) ∧
    (s.byteIndex = 1 → exec .c2rCount s = .next { s with
      trace := s.trace ++ [.busData (
        BitVec.ofInt 8 (((s.head : Int) - (s.tail : Int)) % (s.params.slots : Int)))] }) ∧
    (s.byteIndex ≠ 1 → exec .c2rCount s = .next { s with trace := s.trace ++ [.busData 0x00] })

/-- R105, R107, R109, R113, R115: keys 0x002, 0x003, 0x004, 0x006, 0x007. Data bytes written to the read-only commands
change nothing at any position. -/
def Obligations.ReadOnlyCommandsIgnoreData : Prop :=
  ∀ (b : Byte) (s : State),
    (instrOfKey 0x002 b = some (.c2wCount b) ∧ exec (.c2wCount b) s = .next s) ∧
    (instrOfKey 0x003 b = some (.c3wUnpacked b) ∧ exec (.c3wUnpacked b) s = .next s) ∧
    (instrOfKey 0x004 b = some (.c4wPacked b) ∧ exec (.c4wPacked b) s = .next s) ∧
    (instrOfKey 0x006 b = some (.c6wTicks b) ∧ exec (.c6wTicks b) s = .next s) ∧
    (instrOfKey 0x007 b = some (.c7wIdent b) ∧ exec (.c7wIdent b) s = .next s)

/-- R108: key 0x103. The unpacked read by position: zero past position 28; at positions 1, 5, .., 25 emptiness is latched; a
cycle latched empty serves zero; any other serves the bytes of R45 of the sample at `tail`, and its last byte advances `tail`
outside Single mode. (`tail` a slot of the buffer where the sample is read: R26.) -/
def Obligations.UnpackedReadByPosition : Prop :=
  ∀ s : State,
    (∀ b, instrOfKey 0x103 b = some .c3rUnpacked) ∧
    (s.byteIndex.toNat = 0 ∨ 28 < s.byteIndex.toNat →
      exec .c3rUnpacked s = .next { s with trace := s.trace ++ [.busData 0x00] }) ∧
    (s.byteIndex.toNat ≤ 28 → s.byteIndex.toNat % 4 = 1 → s.head = s.tail →
      exec .c3rUnpacked s = .next { s with rdEmpty := true, trace := s.trace ++ [.busData 0x00] }) ∧
    (s.byteIndex.toNat ≤ 28 → s.byteIndex.toNat % 4 = 1 → s.head ≠ s.tail → s.tail < s.params.slots →
      exec .c3rUnpacked s = .next { s with
        rdEmpty := false
        trace := s.trace ++ [.busData ((s.buf.read s.tail).a.extractLsb' 0 8)] }) ∧
    (s.byteIndex.toNat ≠ 0 → s.byteIndex.toNat ≤ 28 → s.byteIndex.toNat % 4 ≠ 1 → s.rdEmpty = true →
      exec .c3rUnpacked s = .next { s with trace := s.trace ++ [.busData 0x00] }) ∧
    (s.byteIndex.toNat ≤ 28 → s.byteIndex.toNat % 4 = 2 → s.rdEmpty = false → s.tail < s.params.slots →
      exec .c3rUnpacked s = .next { s with
        trace := s.trace ++ [.busData (((s.buf.read s.tail).a.extractLsb' 8 2).zeroExtend 8)] }) ∧
    (s.byteIndex.toNat ≤ 28 → s.byteIndex.toNat % 4 = 3 → s.rdEmpty = false → s.tail < s.params.slots →
      exec .c3rUnpacked s = .next { s with
        trace := s.trace ++ [.busData ((s.buf.read s.tail).b.extractLsb' 0 8)] }) ∧
    (s.byteIndex.toNat ≠ 0 → s.byteIndex.toNat ≤ 28 → s.byteIndex.toNat % 4 = 0 → s.rdEmpty = false →
      s.tail < s.params.slots →
      exec .c3rUnpacked s = .next { s with
        tail := if s.mode = .single then s.tail else (s.tail + 1) % s.params.slots
        trace := s.trace ++ [.busData (
          0#2 ++ BitVec.ofBool (s.buf.read s.tail).valid ++ (s.buf.read s.tail).ov ++
            (s.buf.read s.tail).b.extractLsb' 8 2)] })

/-- R110: key 0x104. The packed read by position: as the unpacked read, with cycles of 3 bytes, limit 30, and the bytes of
R46. -/
def Obligations.PackedReadByPosition : Prop :=
  ∀ s : State,
    (∀ b, instrOfKey 0x104 b = some .c4rPacked) ∧
    (s.byteIndex.toNat = 0 ∨ 30 < s.byteIndex.toNat →
      exec .c4rPacked s = .next { s with trace := s.trace ++ [.busData 0x00] }) ∧
    (s.byteIndex.toNat ≤ 30 → s.byteIndex.toNat % 3 = 1 → s.head = s.tail →
      exec .c4rPacked s = .next { s with rdEmpty := true, trace := s.trace ++ [.busData 0x00] }) ∧
    (s.byteIndex.toNat ≤ 30 → s.byteIndex.toNat % 3 = 1 → s.head ≠ s.tail → s.tail < s.params.slots →
      exec .c4rPacked s = .next { s with
        rdEmpty := false
        trace := s.trace ++ [.busData ((s.buf.read s.tail).a.extractLsb' 0 8)] }) ∧
    (s.byteIndex.toNat ≠ 0 → s.byteIndex.toNat ≤ 30 → s.byteIndex.toNat % 3 ≠ 1 → s.rdEmpty = true →
      exec .c4rPacked s = .next { s with trace := s.trace ++ [.busData 0x00] }) ∧
    (s.byteIndex.toNat ≤ 30 → s.byteIndex.toNat % 3 = 2 → s.rdEmpty = false → s.tail < s.params.slots →
      exec .c4rPacked s = .next { s with
        trace := s.trace ++ [.busData (
          (s.buf.read s.tail).b.extractLsb' 0 6 ++ (s.buf.read s.tail).a.extractLsb' 8 2)] }) ∧
    (s.byteIndex.toNat ≠ 0 → s.byteIndex.toNat ≤ 30 → s.byteIndex.toNat % 3 = 0 → s.rdEmpty = false →
      s.tail < s.params.slots →
      exec .c4rPacked s = .next { s with
        tail := if s.mode = .single then s.tail else (s.tail + 1) % s.params.slots
        trace := s.trace ++ [.busData (
          BitVec.ofBool (s.buf.read s.tail).valid ++ (s.buf.read s.tail).ov ++
            (s.buf.read s.tail).b.extractLsb' 6 4)] })

/-- A read of a sample whose `tail` is no slot stops with the model's fault (log entry 8: the spec says only slots
0..P_N-1 exist): at the first position of a cycle where the buffer is not empty, at every other position of a cycle where the
cycle was not latched empty. -/
def Obligations.MissingSlotFaults : Prop :=
  ∀ s : State, s.params.slots ≤ s.tail →
    (1 ≤ s.byteIndex.toNat → s.byteIndex.toNat ≤ 28 → s.byteIndex.toNat % 4 = 1 → s.head ≠ s.tail →
      exec .c3rUnpacked s = .fault .slotOutOfRange) ∧
    (1 ≤ s.byteIndex.toNat → s.byteIndex.toNat ≤ 28 → s.byteIndex.toNat % 4 ≠ 1 → s.rdEmpty = false →
      exec .c3rUnpacked s = .fault .slotOutOfRange) ∧
    (1 ≤ s.byteIndex.toNat → s.byteIndex.toNat ≤ 30 → s.byteIndex.toNat % 3 = 1 → s.head ≠ s.tail →
      exec .c4rPacked s = .fault .slotOutOfRange) ∧
    (1 ≤ s.byteIndex.toNat → s.byteIndex.toNat ≤ 30 → s.byteIndex.toNat % 3 ≠ 1 → s.rdEmpty = false →
      exec .c4rPacked s = .fault .slotOutOfRange)

/-- R111: key 0x005. An address byte in 0x03..0x77 at position 1 is staged; anything else is ignored. -/
def Obligations.AddressStageRangeChecked : Prop :=
  ∀ (b : Byte) (s : State),
    instrOfKey 0x005 b = some (.c5wAddrStage b) ∧
    (s.byteIndex = 1 → 0x03 ≤ b.toNat → b.toNat ≤ 0x77 →
      exec (.c5wAddrStage b) s = .next { s with stagedAddress := BitVec.ofNat 7 b.toNat }) ∧
    (s.byteIndex ≠ 1 ∨ b.toNat < 0x03 ∨ 0x77 < b.toNat → exec (.c5wAddrStage b) s = .next s)

/-- R112 and R120: keys 0x105 and 0x109. The write-only commands read zero at every position and change nothing. -/
def Obligations.WriteOnlyCommandsReadZero : Prop :=
  ∀ s : State,
    ((∀ b, instrOfKey 0x105 b = some .c5rAddrStage) ∧
      exec .c5rAddrStage s = .next { s with trace := s.trace ++ [.busData 0x00] }) ∧
    ((∀ b, instrOfKey 0x109 b = some .c9rCommit) ∧
      exec .c9rCommit s = .next { s with trace := s.trace ++ [.busData 0x00] })

/-- R114: key 0x106. Position 1 takes the snapshot of the counter; positions 1..4 serve the snapshot, least significant byte
first; every other position serves zero. -/
def Obligations.TickCounterSnapshotRead : Prop :=
  ∀ s : State,
    (∀ b, instrOfKey 0x106 b = some .c6rTicks) ∧
    (s.byteIndex = 1 → exec .c6rTicks s = .next { s with
      tickSnap := s.cumulativeTicks
      trace := s.trace ++ [.busData (BitVec.ofNat 8 s.cumulativeTicks.toNat)] }) ∧
    (2 ≤ s.byteIndex.toNat → s.byteIndex.toNat ≤ 4 → exec .c6rTicks s = .next { s with
      trace := s.trace ++ [.busData (BitVec.ofNat 8 (s.tickSnap.toNat / 256 ^ (s.byteIndex.toNat - 1)))] }) ∧
    (s.byteIndex.toNat = 0 ∨ 4 < s.byteIndex.toNat →
      exec .c6rTicks s = .next { s with trace := s.trace ++ [.busData 0x00] })

/-- R116: key 0x107. The four identity parameters at positions 1..4, zero elsewhere. -/
def Obligations.IdentityRead : Prop :=
  ∀ s : State,
    (∀ b, instrOfKey 0x107 b = some .c7rIdent) ∧
    exec .c7rIdent s = .next { s with
      trace := s.trace ++ [.busData (
        if s.byteIndex = 1 then s.params.idTag
        else if s.byteIndex = 2 then s.params.markerTag
        else if s.byteIndex = 3 then s.params.verMajor
        else if s.byteIndex = 4 then s.params.verMinor
        else 0x00)] }

/-- R117: key 0x008. The low 6 bits of the byte at position 1 become the trim, as a two's-complement value; every other
position is ignored. -/
def Obligations.TrimWriteAtPositionOne : Prop :=
  ∀ (b : Byte) (s : State),
    instrOfKey 0x008 b = some (.c8wTrim b) ∧
    (s.byteIndex = 1 → ∃ v : BitVec 6, exec (.c8wTrim b) s = .next { s with trim := v } ∧
      v.toInt = (if b.toNat % 64 < 32 then (b.toNat % 64 : Int) else (b.toNat % 64 : Int) - 64)) ∧
    (s.byteIndex ≠ 1 → exec (.c8wTrim b) s = .next s)

/-- R118: key 0x108. The trim, as an 8-bit two's-complement byte, at position 1, zero elsewhere. -/
def Obligations.TrimReadSignExtended : Prop :=
  ∀ s : State,
    (∀ b, instrOfKey 0x108 b = some .c8rTrim) ∧
    (s.byteIndex = 1 → ∃ b : Byte, exec .c8rTrim s = .next { s with trace := s.trace ++ [.busData b] } ∧
      b.toInt = s.trim.toInt) ∧
    (s.byteIndex ≠ 1 → exec .c8rTrim s = .next { s with trace := s.trace ++ [.busData 0x00] })

/-- R119: key 0x009. Byte 1 arms exactly on 0x55; byte 2 requests the commit exactly on 0xAA while armed, and disarms; every
other position is ignored. -/
def Obligations.CommitWriteArmsAndRequests : Prop :=
  ∀ (b : Byte) (s : State),
    instrOfKey 0x009 b = some (.c9wCommit b) ∧
    (s.byteIndex = 1 → exec (.c9wCommit b) s = .next { s with commitArm := decide (b = 0x55) }) ∧
    (s.byteIndex = 2 → s.commitArm = true → b = 0xAA →
      exec (.c9wCommit b) s = .next { s with commitRequested := true, commitArm := false }) ∧
    (s.byteIndex = 2 → s.commitArm = false ∨ b ≠ 0xAA →
      exec (.c9wCommit b) s = .next { s with commitArm := false }) ∧
    (s.byteIndex ≠ 1 → s.byteIndex ≠ 2 → exec (.c9wCommit b) s = .next s)

/-- R121: keys 0x00A..0x0FF. A data byte written to any of the commands 10..255 is of one of the six rows and changes
nothing. -/
def Obligations.UnrecognizedWritesIgnored : Prop :=
  ∀ (c b : Byte) (s : State),
    (10 ≤ c.toNat → ∃ i, instrOfKey (opcodeKey 0#1 c) b = some i ∧ exec i s = .next s ∧
      i ∈ [.cxw10to11 c b, .cxw12to15 c b, .cxw16to31 c b, .cxw32to63 c b, .cxw64to127 c b, .cxw128to255 c b]) ∧
    (exec (.cxw10to11 c b) s = .next s ∧ exec (.cxw12to15 c b) s = .next s ∧ exec (.cxw16to31 c b) s = .next s ∧
      exec (.cxw32to63 c b) s = .next s ∧ exec (.cxw64to127 c b) s = .next s ∧ exec (.cxw128to255 c b) s = .next s)

/-- R122: keys 0x10A..0x1FF. A read of any of the commands 10..255 is of one of the six rows, serves zero and changes no
register. -/
def Obligations.UnrecognizedReadsZero : Prop :=
  ∀ (c : Byte) (s : State),
    (10 ≤ c.toNat → ∃ i, (∀ b, instrOfKey (opcodeKey 1#1 c) b = some i) ∧
      exec i s = .next { s with trace := s.trace ++ [.busData 0x00] } ∧
      i ∈ [.cxr10to11 c, .cxr12to15 c, .cxr16to31 c, .cxr32to63 c, .cxr64to127 c, .cxr128to255 c]) ∧
    (∀ i ∈ [Instr.cxr10to11 c, .cxr12to15 c, .cxr16to31 c, .cxr32to63 c, .cxr64to127 c, .cxr128to255 c],
      exec i s = .next { s with trace := s.trace ++ [.busData 0x00] })

/-! ### Sample layouts -/

/-- R45: the four bytes of the unpacked layout (valid and ov where the spec's decision D7 puts them). -/
def Obligations.UnpackedBytesOfSample : Prop :=
  ∀ x : Sample,
    (unpackedByte x 1).toNat = x.a.toNat % 256 ∧
    (unpackedByte x 2).toNat = x.a.toNat / 256 ∧
    (unpackedByte x 3).toNat = x.b.toNat % 256 ∧
    (unpackedByte x 4).toNat = x.b.toNat / 256 + 4 * x.ov.toNat + 32 * x.valid.toNat

/-- R46: the three bytes of the packed layout, least significant first, are P = A + B*2^10 + ov*2^20 + valid*2^23 (the
spec's decision D8). -/
def Obligations.PackedBytesOfSample : Prop :=
  ∀ x : Sample,
    (packedByte x 1).toNat + 256 * (packedByte x 2).toNat + 65536 * (packedByte x 3).toNat =
      x.a.toNat + x.b.toNat * 2 ^ 10 + x.ov.toNat * 2 ^ 20 + x.valid.toNat * 2 ^ 23

/-- The source's §8 bullet 5 (95_test_vectors.md L1.5): the bytes of both layouts determine the sample, and two samples with
the same bytes in one layout have the same bytes in the other. -/
def Obligations.BothLayoutsCarryTheSample : Prop :=
  ∀ x y : Sample,
    ((∀ p, 1 ≤ p → p ≤ 4 → unpackedByte x p = unpackedByte y p) ↔ x = y) ∧
    ((∀ p, 1 ≤ p → p ≤ 3 → packedByte x p = packedByte y p) ↔ x = y)

/-! ### Runs of events -/

/-- R87's first corner case and the source's §8 bullet 1: in Timer mode with a reloaded countdown, n periods of ticks make
exactly n expiries: the counter has advanced by n (modulo 2^32), the countdown is reloaded, auxOut has toggled n times. -/
def Obligations.ExpiriesComeEveryPeriod : Prop :=
  ∀ (s : State) (n : Nat), s.mode = .timer → s.currentCountdown = s.targetPeriod → s.targetPeriod ≠ 0 →
    ∃ t, runEvents s (List.replicate (n * s.targetPeriod.toNat) .tick) = .next t ∧
      t.cumulativeTicks = BitVec.ofNat 32 (s.cumulativeTicks.toNat + n) ∧
      t.currentCountdown = s.targetPeriod ∧ t.targetPeriod = s.targetPeriod ∧ t.mode = .timer ∧
      t.auxOut = (if n % 2 = 0 then s.auxOut else !s.auxOut)

/-- R87: before the countdown's last tick nothing but the countdown changes, and the last tick expires. -/
def Obligations.CountdownRunsToExpiry : Prop :=
  ∀ (s : State) (k : Nat), s.mode = .timer → k < s.currentCountdown.toNat →
    runEvents s (List.replicate k .tick) =
      .next { s with inbox := [], currentCountdown := s.currentCountdown - BitVec.ofNat 16 k } ∧
    runEvents s (List.replicate s.currentCountdown.toNat .tick) =
      .next { s with
        inbox := []
        currentCountdown := s.targetPeriod
        cumulativeTicks := s.cumulativeTicks + 1
        auxOut := !s.auxOut }.requestStart

/-- R52 and the source's §8 bullet 6: a command 9 write transaction with any data sets the commit flag exactly when its first
two data bytes are 0x55, 0xAA; whatever the data, nothing is persisted or applied by the transaction itself. -/
def Obligations.CommitNeedsExactSequence : Prop :=
  ∀ (s : State) (data : List Byte),
    ∃ t, runEvents s (hostWrite 0x09 data) = .next t ∧
      (t.commitRequested = true ↔ s.commitRequested = true ∨ data.take 2 = [0x55, 0xAA]) ∧
      t.activeAddress = s.activeAddress ∧ t.stagedAddress = s.stagedAddress ∧ t.trim = s.trim ∧ t.trace = s.trace

/-- The source's §8 bullet 3 (95_test_vectors.md L1.3): staging an address, the commit sequence and a commit step make the
bus interface match the staged address and no other, and persist it with the trim; a byte out of range leaves the address
that was staged before. The bus interface and its address byte stand outside the step: the model's choice, on general
knowledge of the spec's own (log entry 16). -/
def Obligations.AddressChangeRoundTrip : Prop :=
  ∀ (s : State) (b : Byte),
    ∃ t, runEvents s (hostWrite 0x05 [b] ++ hostWrite 0x09 [0x55, 0xAA] ++ [.commitStep]) = .next t ∧
      t.activeAddress =
        (if 0x03 ≤ b.toNat ∧ b.toNat ≤ 0x77 then BitVec.ofNat 7 b.toNat else s.stagedAddress) ∧
      t.stagedAddress = t.activeAddress ∧ t.commitRequested = false ∧
      t.trace = s.trace ++ [.persistWrite (t.activeAddress.zeroExtend 8) (s.trim.signExtend 8)] ∧
      ∀ (a : BitVec 7) (d : Dir) (selected : Bool),
        busInterface t.ownAddr selected (.address (addressByte a d)) =
          if a = t.activeAddress then (true, some (.addrMatch d)) else (false, none)

/-- 20_memory.md and 30_encoding.md (R24, R38): a transfer to another address delivers no event to the block, and neither do
its bytes. The bus interface stands outside the step, and its address byte is general knowledge in the spec (log entry 16). -/
def Obligations.ForeignTransferDeliversNothing : Prop :=
  ∀ (own a : BitVec 7) (d : Dir) (selected : Bool) (b : Byte), a ≠ own →
    busInterface own selected (.address (addressByte a d)) = (false, none) ∧
    busInterface own false (.written b) = (false, none) ∧ busInterface own false .requested = (false, none)

/-- R68, R69 and R45: reading one sample unpacked (`RD 3, 4`) from a buffer that holds one serves its four bytes and takes
it from the buffer, outside Single mode; in Single mode `tail` is pinned. -/
def Obligations.UnpackedTransactionServesSample : Prop :=
  ∀ s : State, s.head ≠ s.tail → s.tail < s.params.slots →
    ∃ t, runEvents s (hostReadCommand 0x03 4) = .next t ∧
      t.trace = s.trace ++ [
        .busData (unpackedByte (s.buf.read s.tail) 1), .busData (unpackedByte (s.buf.read s.tail) 2),
        .busData (unpackedByte (s.buf.read s.tail) 3), .busData (unpackedByte (s.buf.read s.tail) 4)] ∧
      t.tail = (if s.mode = .single then s.tail else (s.tail + 1) % s.params.slots) ∧
      t.head = s.head ∧ t.buf = s.buf ∧ t.overrunCount = s.overrunCount

/-- The source's §8 bullet 4 (95_test_vectors.md L1.4): in Single mode a read of n <= 10 packed cycles serves the identical
sample n times, and `tail` stays. -/
def Obligations.SingleModeRepeatsSample : Prop :=
  ∀ (s : State) (n : Nat), s.mode = .single → s.head ≠ s.tail → s.tail < s.params.slots → n ≤ 10 →
    ∃ t, runEvents s (hostReadCommand 0x04 (3 * n)) = .next t ∧
      t.trace = s.trace ++ (List.replicate n [
        Output.busData (packedByte (s.buf.read s.tail) 1), .busData (packedByte (s.buf.read s.tail) 2),
        .busData (packedByte (s.buf.read s.tail) 3)]).flatten ∧
      t.tail = s.tail ∧ t.head = s.head ∧ t.buf = s.buf

/-- R47: a read of an empty buffer serves zero bytes only and leaves `tail`, in both layouts, at any length. -/
def Obligations.EmptyBufferReadsZero : Prop :=
  ∀ (s : State) (c : Byte) (k : Nat), c = 0x03 ∨ c = 0x04 → s.head = s.tail →
    ∃ t, runEvents s (hostReadCommand c k) = .next t ∧
      t.trace = s.trace ++ List.replicate k (.busData 0x00) ∧ t.tail = s.tail ∧ t.head = s.head ∧ t.buf = s.buf

/-- R72 to R75 in one run: a conversion with no intervening events, begun and not discarded, in a buffer that is not full,
puts the pair of results with the overrun count into slot `head` and ends idle. -/
def Obligations.ConversionPushesPair : Prop :=
  ∀ (s : State) (a b : BitVec 10), s.Inv → s.seqPhase = .settleA → s.discardInFlight = false →
    s.count + 1 < s.params.slots →
    ∃ t, runEvents s (conversion a b) = .next t ∧
      t.buf.read s.head = { a := a, b := b, ov := s.overrunCount, valid := true } ∧
      t.count = s.count + 1 ∧ t.overrunCount = 0 ∧ t.seqPhase = .idle ∧ t.tail = s.tail ∧ t.mode = s.mode ∧
      t.trace = s.trace ++ [.adcStart .a, .settleArm, .adcStart .b]

/-- 42_conversion.md (R78, R74, R75) and 95_test_vectors.md section 2.12: a stop, written in any phase of a conversion in
flight, does not abort it. The phase in progress runs to its end (the settling delay first, where it is still armed), its
result is dropped, no phase follows, nothing is pushed, and the buffer is left empty. -/
def Obligations.StopDiscardsConversionInFlight : Prop :=
  ∀ (s : State) (b : Byte) (v : BitVec 10), b.getLsbD 0 = false → s.seqPhase ≠ .idle →
    ∃ t, runEvents s (hostWrite 0x00 [b] ++
        ((if s.seqPhase = .settleA ∨ s.seqPhase = .settleB then [.settleDone] else []) ++ [.adcDone v])) = .next t ∧
      t.trace = s.trace ++ (
        if s.seqPhase = .settleA then [.adcStart .a] else if s.seqPhase = .settleB then [.adcStart .b] else []) ∧
      t.seqPhase = .idle ∧ t.discardInFlight = false ∧ t.pendingStart = false ∧ t.mode = .off ∧ t.count = 0 ∧
      t.buf = s.buf ∧ t.overrunCount = 0 ∧ t.cumulativeTicks = s.cumulativeTicks ∧ t.targetPeriod = s.targetPeriod

/-- R51, R118 and the source's §8 bullet 7: a trim byte written is read back sign-extended from its low 6 bits. -/
def Obligations.TrimReadsBack : Prop :=
  ∀ (s : State) (b : Byte),
    ∃ t r, runEvents s (hostWrite 0x08 [b] ++ hostReadCommand 0x08 1) = .next t ∧
      t.trace = s.trace ++ [.busData r] ∧
      r.toInt = (if b.toNat % 64 < 32 then (b.toNat % 64 : Int) else (b.toNat % 64 : Int) - 64) ∧
      t.oscTrimOut = s.oscTrimOut
end

