-- ==== Sys2Proof/Laws/Memory.lean ====
section
/-! SUPPORT. The ring memory: a read after a write, the canonical form, the slots that exist. -/

namespace Sys2Proof.Machine

theorem Memory.above_iff (m : Memory) (i : Nat) :
    Memory.above m i = true ↔ ∀ c ∈ m, i < c.1 := by
  simp [Memory.above]

theorem Memory.within_iff (m : Memory) (n : Nat) :
    Memory.within m n = true ↔ ∀ c ∈ m, c.1 < n := by
  simp [Memory.within]

/-- A slot below every listed slot reads as an unlisted one. -/
theorem Memory.read_of_above (m : Memory) (i j : Nat) (h : Memory.above m i = true) (hj : j ≤ i) :
    Memory.read m j = Sample.blank := by
  rw [Memory.above_iff] at h
  induction m with
  | nil => rfl
  | cons c rest ih =>
    have hc : i < c.1 := h c (by simp)
    have hne : c.1 ≠ j := by omega
    simp only [Memory.read, hne, if_false]
    exact ih fun d hd => h d (by simp [hd])

/-- What a write lists lies among the slot written and the slots listed before. -/
theorem Memory.mem_write (m : Memory) (i : Nat) (x : Sample) (c : Nat × Sample)
    (h : c ∈ Memory.write m i x) : c.1 = i ∨ c ∈ m := by
  induction m with
  | nil =>
    simp only [Memory.write] at h
    split at h
    · simp at h
    · simp only [List.mem_singleton] at h
      exact .inl (by rw [h])
  | cons d rest ih =>
    simp only [Memory.write] at h
    split at h
    · split at h
      · exact .inr h
      · rcases List.mem_cons.1 h with h | h
        · exact .inl (by rw [h])
        · exact .inr h
    · split at h
      · split at h
        · exact .inr (List.mem_cons_of_mem _ h)
        · rcases List.mem_cons.1 h with h | h
          · exact .inl (by rw [h])
          · exact .inr (List.mem_cons_of_mem _ h)
      · rcases List.mem_cons.1 h with h | h
        · exact .inr (by rw [h]; simp)
        · rcases ih h with h | h
          · exact .inl h
          · exact .inr (List.mem_cons_of_mem _ h)

/-- A write keeps the canonical form. -/
theorem Memory.write_wf (m : Memory) (i : Nat) (x : Sample) (h : Memory.wf m = true) :
    Memory.wf (Memory.write m i x) = true := by
  induction m with
  | nil =>
    simp only [Memory.write]
    split
    · rfl
    · simp [Memory.wf, Memory.above, *]
  | cons c rest ih =>
    obtain ⟨j, y⟩ := c
    simp only [Memory.wf, Bool.and_eq_true] at h
    obtain ⟨⟨hy, ha⟩, hr⟩ := h
    simp only [Memory.write]
    split
    · rename_i hij
      split
      · simp [Memory.wf, hy, ha, hr]
      · have hab : Memory.above ((j, y) :: rest) i = true := by
          rw [Memory.above_iff] at ha ⊢
          intro c hc
          rcases List.mem_cons.1 hc with rfl | hc
          · exact hij
          · exact lt_trans hij (ha c hc)
        simp only [Memory.wf, hab, hy, ha, hr]
        simp [*]
    · split
      · rename_i hij
        subst hij
        split
        · exact hr
        · simp only [Memory.wf, ha, hr]
          simp [*]
      · rename_i h1 h2
        have hab : Memory.above (Memory.write rest i x) j = true := by
          rw [Memory.above_iff] at ha ⊢
          intro c hc
          rcases Memory.mem_write rest i x c hc with hc | hc
          · omega
          · exact ha c hc
        simp only [Memory.wf, hab, hy, ih hr]
        simp

/-- A write of an existing slot lists existing slots only. -/
theorem Memory.write_within (m : Memory) (i n : Nat) (x : Sample) (hi : i < n)
    (h : Memory.within m n = true) : Memory.within (Memory.write m i x) n = true := by
  rw [Memory.within_iff] at h ⊢
  intro c hc
  rcases Memory.mem_write m i x c hc with hc | hc
  · omega
  · exact h c hc

/-- A read after a write to the same slot gives the sample written. -/
theorem Memory.read_write_same (m : Memory) (i : Nat) (x : Sample) (h : Memory.wf m = true) :
    Memory.read (Memory.write m i x) i = x := by
  induction m with
  | nil =>
    simp only [Memory.write]
    split
    · simp_all [Memory.read]
    · simp [Memory.read]
  | cons c rest ih =>
    obtain ⟨j, y⟩ := c
    simp only [Memory.wf, Bool.and_eq_true] at h
    obtain ⟨⟨hy, ha⟩, hr⟩ := h
    simp only [Memory.write]
    split
    · rename_i hij
      split
      · rename_i hx
        have hne : j ≠ i := by omega
        simp only [Memory.read, hne, if_false, hx]
        exact Memory.read_of_above rest j i ha (by omega)
      · simp [Memory.read]
    · split
      · rename_i hij
        subst hij
        split
        · rename_i hx
          rw [hx]
          exact Memory.read_of_above rest i i ha (le_refl i)
        · simp [Memory.read]
      · rename_i h1 h2
        have hne : j ≠ i := by omega
        simp only [Memory.read, hne, if_false]
        exact ih hr

/-- A write leaves every other slot alone. -/
theorem Memory.read_write_other (m : Memory) (i k : Nat) (x : Sample) (hk : k ≠ i) :
    Memory.read (Memory.write m i x) k = Memory.read m k := by
  induction m with
  | nil =>
    simp only [Memory.write]
    split
    · rfl
    · simp [Memory.read, Ne.symm hk]
  | cons c rest ih =>
    obtain ⟨j, y⟩ := c
    simp only [Memory.write]
    split
    · split
      · rfl
      · simp [Memory.read, Ne.symm hk]
    · split
      · rename_i hij
        subst hij
        split
        · simp [Memory.read, Ne.symm hk]
        · simp [Memory.read, Ne.symm hk]
      · by_cases hj : j = k
        · simp [Memory.read, hj]
        · simp [Memory.read, hj, ih]

end Sys2Proof.Machine
end

