-- ==== Sys2Proof/Laws/State.lean ====
section
/-! SUPPORT. One lemma per field per named update of State, so that no proof unfolds a record update. -/

namespace Sys2Proof.Machine

/-! ### State.drive -/

@[simp] theorem State.drive_params (s : State) (o : Output) : (s.drive o).params = s.params := rfl
@[simp] theorem State.drive_activeCommand (s : State) (o : Output) : (s.drive o).activeCommand = s.activeCommand := rfl
@[simp] theorem State.drive_byteIndex (s : State) (o : Output) : (s.drive o).byteIndex = s.byteIndex := rfl
@[simp] theorem State.drive_busDir (s : State) (o : Output) : (s.drive o).busDir = s.busDir := rfl
@[simp] theorem State.drive_periodLo (s : State) (o : Output) : (s.drive o).periodLo = s.periodLo := rfl
@[simp] theorem State.drive_commitArm (s : State) (o : Output) : (s.drive o).commitArm = s.commitArm := rfl
@[simp] theorem State.drive_tickSnap (s : State) (o : Output) : (s.drive o).tickSnap = s.tickSnap := rfl
@[simp] theorem State.drive_rdEmpty (s : State) (o : Output) : (s.drive o).rdEmpty = s.rdEmpty := rfl
@[simp] theorem State.drive_mode (s : State) (o : Output) : (s.drive o).mode = s.mode := rfl
@[simp] theorem State.drive_ctrlRun (s : State) (o : Output) : (s.drive o).ctrlRun = s.ctrlRun := rfl
@[simp] theorem State.drive_ctrlMode (s : State) (o : Output) : (s.drive o).ctrlMode = s.ctrlMode := rfl
@[simp] theorem State.drive_targetPeriod (s : State) (o : Output) : (s.drive o).targetPeriod = s.targetPeriod := rfl
@[simp] theorem State.drive_currentCountdown (s : State) (o : Output) : (s.drive o).currentCountdown = s.currentCountdown := rfl
@[simp] theorem State.drive_cumulativeTicks (s : State) (o : Output) : (s.drive o).cumulativeTicks = s.cumulativeTicks := rfl
@[simp] theorem State.drive_auxOut (s : State) (o : Output) : (s.drive o).auxOut = s.auxOut := rfl
@[simp] theorem State.drive_oscTrimOut (s : State) (o : Output) : (s.drive o).oscTrimOut = s.oscTrimOut := rfl
@[simp] theorem State.drive_seqPhase (s : State) (o : Output) : (s.drive o).seqPhase = s.seqPhase := rfl
@[simp] theorem State.drive_resA (s : State) (o : Output) : (s.drive o).resA = s.resA := rfl
@[simp] theorem State.drive_discardInFlight (s : State) (o : Output) : (s.drive o).discardInFlight = s.discardInFlight := rfl
@[simp] theorem State.drive_pendingStart (s : State) (o : Output) : (s.drive o).pendingStart = s.pendingStart := rfl
@[simp] theorem State.drive_buf (s : State) (o : Output) : (s.drive o).buf = s.buf := rfl
@[simp] theorem State.drive_head (s : State) (o : Output) : (s.drive o).head = s.head := rfl
@[simp] theorem State.drive_tail (s : State) (o : Output) : (s.drive o).tail = s.tail := rfl
@[simp] theorem State.drive_overrunCount (s : State) (o : Output) : (s.drive o).overrunCount = s.overrunCount := rfl
@[simp] theorem State.drive_activeAddress (s : State) (o : Output) : (s.drive o).activeAddress = s.activeAddress := rfl
@[simp] theorem State.drive_stagedAddress (s : State) (o : Output) : (s.drive o).stagedAddress = s.stagedAddress := rfl
@[simp] theorem State.drive_trim (s : State) (o : Output) : (s.drive o).trim = s.trim := rfl
@[simp] theorem State.drive_commitRequested (s : State) (o : Output) : (s.drive o).commitRequested = s.commitRequested := rfl
@[simp] theorem State.drive_inbox (s : State) (o : Output) : (s.drive o).inbox = s.inbox := rfl
@[simp] theorem State.drive_trace (s : State) (o : Output) : (s.drive o).trace = s.trace ++ [o] := rfl

/-! ### State.emit -/

@[simp] theorem State.emit_params (s : State) (b : Byte) : (s.emit b).params = s.params := rfl
@[simp] theorem State.emit_activeCommand (s : State) (b : Byte) : (s.emit b).activeCommand = s.activeCommand := rfl
@[simp] theorem State.emit_byteIndex (s : State) (b : Byte) : (s.emit b).byteIndex = s.byteIndex := rfl
@[simp] theorem State.emit_busDir (s : State) (b : Byte) : (s.emit b).busDir = s.busDir := rfl
@[simp] theorem State.emit_periodLo (s : State) (b : Byte) : (s.emit b).periodLo = s.periodLo := rfl
@[simp] theorem State.emit_commitArm (s : State) (b : Byte) : (s.emit b).commitArm = s.commitArm := rfl
@[simp] theorem State.emit_tickSnap (s : State) (b : Byte) : (s.emit b).tickSnap = s.tickSnap := rfl
@[simp] theorem State.emit_rdEmpty (s : State) (b : Byte) : (s.emit b).rdEmpty = s.rdEmpty := rfl
@[simp] theorem State.emit_mode (s : State) (b : Byte) : (s.emit b).mode = s.mode := rfl
@[simp] theorem State.emit_ctrlRun (s : State) (b : Byte) : (s.emit b).ctrlRun = s.ctrlRun := rfl
@[simp] theorem State.emit_ctrlMode (s : State) (b : Byte) : (s.emit b).ctrlMode = s.ctrlMode := rfl
@[simp] theorem State.emit_targetPeriod (s : State) (b : Byte) : (s.emit b).targetPeriod = s.targetPeriod := rfl
@[simp] theorem State.emit_currentCountdown (s : State) (b : Byte) : (s.emit b).currentCountdown = s.currentCountdown := rfl
@[simp] theorem State.emit_cumulativeTicks (s : State) (b : Byte) : (s.emit b).cumulativeTicks = s.cumulativeTicks := rfl
@[simp] theorem State.emit_auxOut (s : State) (b : Byte) : (s.emit b).auxOut = s.auxOut := rfl
@[simp] theorem State.emit_oscTrimOut (s : State) (b : Byte) : (s.emit b).oscTrimOut = s.oscTrimOut := rfl
@[simp] theorem State.emit_seqPhase (s : State) (b : Byte) : (s.emit b).seqPhase = s.seqPhase := rfl
@[simp] theorem State.emit_resA (s : State) (b : Byte) : (s.emit b).resA = s.resA := rfl
@[simp] theorem State.emit_discardInFlight (s : State) (b : Byte) : (s.emit b).discardInFlight = s.discardInFlight := rfl
@[simp] theorem State.emit_pendingStart (s : State) (b : Byte) : (s.emit b).pendingStart = s.pendingStart := rfl
@[simp] theorem State.emit_buf (s : State) (b : Byte) : (s.emit b).buf = s.buf := rfl
@[simp] theorem State.emit_head (s : State) (b : Byte) : (s.emit b).head = s.head := rfl
@[simp] theorem State.emit_tail (s : State) (b : Byte) : (s.emit b).tail = s.tail := rfl
@[simp] theorem State.emit_overrunCount (s : State) (b : Byte) : (s.emit b).overrunCount = s.overrunCount := rfl
@[simp] theorem State.emit_activeAddress (s : State) (b : Byte) : (s.emit b).activeAddress = s.activeAddress := rfl
@[simp] theorem State.emit_stagedAddress (s : State) (b : Byte) : (s.emit b).stagedAddress = s.stagedAddress := rfl
@[simp] theorem State.emit_trim (s : State) (b : Byte) : (s.emit b).trim = s.trim := rfl
@[simp] theorem State.emit_commitRequested (s : State) (b : Byte) : (s.emit b).commitRequested = s.commitRequested := rfl
@[simp] theorem State.emit_inbox (s : State) (b : Byte) : (s.emit b).inbox = s.inbox := rfl
@[simp] theorem State.emit_trace (s : State) (b : Byte) : (s.emit b).trace = s.trace ++ [.busData b] := rfl

/-! ### State.advanceIndex -/

@[simp] theorem State.advanceIndex_params (s : State) : s.advanceIndex.params = s.params := rfl
@[simp] theorem State.advanceIndex_activeCommand (s : State) : s.advanceIndex.activeCommand = s.activeCommand := rfl
@[simp] theorem State.advanceIndex_byteIndex (s : State) : s.advanceIndex.byteIndex = indexBump s.byteIndex := rfl
@[simp] theorem State.advanceIndex_busDir (s : State) : s.advanceIndex.busDir = s.busDir := rfl
@[simp] theorem State.advanceIndex_periodLo (s : State) : s.advanceIndex.periodLo = s.periodLo := rfl
@[simp] theorem State.advanceIndex_commitArm (s : State) : s.advanceIndex.commitArm = s.commitArm := rfl
@[simp] theorem State.advanceIndex_tickSnap (s : State) : s.advanceIndex.tickSnap = s.tickSnap := rfl
@[simp] theorem State.advanceIndex_rdEmpty (s : State) : s.advanceIndex.rdEmpty = s.rdEmpty := rfl
@[simp] theorem State.advanceIndex_mode (s : State) : s.advanceIndex.mode = s.mode := rfl
@[simp] theorem State.advanceIndex_ctrlRun (s : State) : s.advanceIndex.ctrlRun = s.ctrlRun := rfl
@[simp] theorem State.advanceIndex_ctrlMode (s : State) : s.advanceIndex.ctrlMode = s.ctrlMode := rfl
@[simp] theorem State.advanceIndex_targetPeriod (s : State) : s.advanceIndex.targetPeriod = s.targetPeriod := rfl
@[simp] theorem State.advanceIndex_currentCountdown (s : State) : s.advanceIndex.currentCountdown = s.currentCountdown := rfl
@[simp] theorem State.advanceIndex_cumulativeTicks (s : State) : s.advanceIndex.cumulativeTicks = s.cumulativeTicks := rfl
@[simp] theorem State.advanceIndex_auxOut (s : State) : s.advanceIndex.auxOut = s.auxOut := rfl
@[simp] theorem State.advanceIndex_oscTrimOut (s : State) : s.advanceIndex.oscTrimOut = s.oscTrimOut := rfl
@[simp] theorem State.advanceIndex_seqPhase (s : State) : s.advanceIndex.seqPhase = s.seqPhase := rfl
@[simp] theorem State.advanceIndex_resA (s : State) : s.advanceIndex.resA = s.resA := rfl
@[simp] theorem State.advanceIndex_discardInFlight (s : State) : s.advanceIndex.discardInFlight = s.discardInFlight := rfl
@[simp] theorem State.advanceIndex_pendingStart (s : State) : s.advanceIndex.pendingStart = s.pendingStart := rfl
@[simp] theorem State.advanceIndex_buf (s : State) : s.advanceIndex.buf = s.buf := rfl
@[simp] theorem State.advanceIndex_head (s : State) : s.advanceIndex.head = s.head := rfl
@[simp] theorem State.advanceIndex_tail (s : State) : s.advanceIndex.tail = s.tail := rfl
@[simp] theorem State.advanceIndex_overrunCount (s : State) : s.advanceIndex.overrunCount = s.overrunCount := rfl
@[simp] theorem State.advanceIndex_activeAddress (s : State) : s.advanceIndex.activeAddress = s.activeAddress := rfl
@[simp] theorem State.advanceIndex_stagedAddress (s : State) : s.advanceIndex.stagedAddress = s.stagedAddress := rfl
@[simp] theorem State.advanceIndex_trim (s : State) : s.advanceIndex.trim = s.trim := rfl
@[simp] theorem State.advanceIndex_commitRequested (s : State) : s.advanceIndex.commitRequested = s.commitRequested := rfl
@[simp] theorem State.advanceIndex_inbox (s : State) : s.advanceIndex.inbox = s.inbox := rfl
@[simp] theorem State.advanceIndex_trace (s : State) : s.advanceIndex.trace = s.trace := rfl

/-! ### State.matchAddress -/

@[simp] theorem State.matchAddress_params (s : State) (d : Dir) : (s.matchAddress d).params = s.params := rfl
@[simp] theorem State.matchAddress_activeCommand (s : State) (d : Dir) : (s.matchAddress d).activeCommand = s.activeCommand := rfl
@[simp] theorem State.matchAddress_byteIndex (s : State) (d : Dir) : (s.matchAddress d).byteIndex = 0 := rfl
@[simp] theorem State.matchAddress_busDir (s : State) (d : Dir) : (s.matchAddress d).busDir = match d with | .write => .write | .read => .read := rfl
@[simp] theorem State.matchAddress_periodLo (s : State) (d : Dir) : (s.matchAddress d).periodLo = s.periodLo := rfl
@[simp] theorem State.matchAddress_commitArm (s : State) (d : Dir) : (s.matchAddress d).commitArm = false := rfl
@[simp] theorem State.matchAddress_tickSnap (s : State) (d : Dir) : (s.matchAddress d).tickSnap = s.tickSnap := rfl
@[simp] theorem State.matchAddress_rdEmpty (s : State) (d : Dir) : (s.matchAddress d).rdEmpty = false := rfl
@[simp] theorem State.matchAddress_mode (s : State) (d : Dir) : (s.matchAddress d).mode = s.mode := rfl
@[simp] theorem State.matchAddress_ctrlRun (s : State) (d : Dir) : (s.matchAddress d).ctrlRun = s.ctrlRun := rfl
@[simp] theorem State.matchAddress_ctrlMode (s : State) (d : Dir) : (s.matchAddress d).ctrlMode = s.ctrlMode := rfl
@[simp] theorem State.matchAddress_targetPeriod (s : State) (d : Dir) : (s.matchAddress d).targetPeriod = s.targetPeriod := rfl
@[simp] theorem State.matchAddress_currentCountdown (s : State) (d : Dir) : (s.matchAddress d).currentCountdown = s.currentCountdown := rfl
@[simp] theorem State.matchAddress_cumulativeTicks (s : State) (d : Dir) : (s.matchAddress d).cumulativeTicks = s.cumulativeTicks := rfl
@[simp] theorem State.matchAddress_auxOut (s : State) (d : Dir) : (s.matchAddress d).auxOut = s.auxOut := rfl
@[simp] theorem State.matchAddress_oscTrimOut (s : State) (d : Dir) : (s.matchAddress d).oscTrimOut = s.oscTrimOut := rfl
@[simp] theorem State.matchAddress_seqPhase (s : State) (d : Dir) : (s.matchAddress d).seqPhase = s.seqPhase := rfl
@[simp] theorem State.matchAddress_resA (s : State) (d : Dir) : (s.matchAddress d).resA = s.resA := rfl
@[simp] theorem State.matchAddress_discardInFlight (s : State) (d : Dir) : (s.matchAddress d).discardInFlight = s.discardInFlight := rfl
@[simp] theorem State.matchAddress_pendingStart (s : State) (d : Dir) : (s.matchAddress d).pendingStart = s.pendingStart := rfl
@[simp] theorem State.matchAddress_buf (s : State) (d : Dir) : (s.matchAddress d).buf = s.buf := rfl
@[simp] theorem State.matchAddress_head (s : State) (d : Dir) : (s.matchAddress d).head = s.head := rfl
@[simp] theorem State.matchAddress_tail (s : State) (d : Dir) : (s.matchAddress d).tail = s.tail := rfl
@[simp] theorem State.matchAddress_overrunCount (s : State) (d : Dir) : (s.matchAddress d).overrunCount = s.overrunCount := rfl
@[simp] theorem State.matchAddress_activeAddress (s : State) (d : Dir) : (s.matchAddress d).activeAddress = s.activeAddress := rfl
@[simp] theorem State.matchAddress_stagedAddress (s : State) (d : Dir) : (s.matchAddress d).stagedAddress = s.stagedAddress := rfl
@[simp] theorem State.matchAddress_trim (s : State) (d : Dir) : (s.matchAddress d).trim = s.trim := rfl
@[simp] theorem State.matchAddress_commitRequested (s : State) (d : Dir) : (s.matchAddress d).commitRequested = s.commitRequested := rfl
@[simp] theorem State.matchAddress_inbox (s : State) (d : Dir) : (s.matchAddress d).inbox = s.inbox := rfl
@[simp] theorem State.matchAddress_trace (s : State) (d : Dir) : (s.matchAddress d).trace = s.trace := rfl

/-! ### State.latchEmpty -/

@[simp] theorem State.latchEmpty_params (s : State) : s.latchEmpty.params = s.params := rfl
@[simp] theorem State.latchEmpty_activeCommand (s : State) : s.latchEmpty.activeCommand = s.activeCommand := rfl
@[simp] theorem State.latchEmpty_byteIndex (s : State) : s.latchEmpty.byteIndex = s.byteIndex := rfl
@[simp] theorem State.latchEmpty_busDir (s : State) : s.latchEmpty.busDir = s.busDir := rfl
@[simp] theorem State.latchEmpty_periodLo (s : State) : s.latchEmpty.periodLo = s.periodLo := rfl
@[simp] theorem State.latchEmpty_commitArm (s : State) : s.latchEmpty.commitArm = s.commitArm := rfl
@[simp] theorem State.latchEmpty_tickSnap (s : State) : s.latchEmpty.tickSnap = s.tickSnap := rfl
@[simp] theorem State.latchEmpty_rdEmpty (s : State) : s.latchEmpty.rdEmpty = s.isEmpty := rfl
@[simp] theorem State.latchEmpty_mode (s : State) : s.latchEmpty.mode = s.mode := rfl
@[simp] theorem State.latchEmpty_ctrlRun (s : State) : s.latchEmpty.ctrlRun = s.ctrlRun := rfl
@[simp] theorem State.latchEmpty_ctrlMode (s : State) : s.latchEmpty.ctrlMode = s.ctrlMode := rfl
@[simp] theorem State.latchEmpty_targetPeriod (s : State) : s.latchEmpty.targetPeriod = s.targetPeriod := rfl
@[simp] theorem State.latchEmpty_currentCountdown (s : State) : s.latchEmpty.currentCountdown = s.currentCountdown := rfl
@[simp] theorem State.latchEmpty_cumulativeTicks (s : State) : s.latchEmpty.cumulativeTicks = s.cumulativeTicks := rfl
@[simp] theorem State.latchEmpty_auxOut (s : State) : s.latchEmpty.auxOut = s.auxOut := rfl
@[simp] theorem State.latchEmpty_oscTrimOut (s : State) : s.latchEmpty.oscTrimOut = s.oscTrimOut := rfl
@[simp] theorem State.latchEmpty_seqPhase (s : State) : s.latchEmpty.seqPhase = s.seqPhase := rfl
@[simp] theorem State.latchEmpty_resA (s : State) : s.latchEmpty.resA = s.resA := rfl
@[simp] theorem State.latchEmpty_discardInFlight (s : State) : s.latchEmpty.discardInFlight = s.discardInFlight := rfl
@[simp] theorem State.latchEmpty_pendingStart (s : State) : s.latchEmpty.pendingStart = s.pendingStart := rfl
@[simp] theorem State.latchEmpty_buf (s : State) : s.latchEmpty.buf = s.buf := rfl
@[simp] theorem State.latchEmpty_head (s : State) : s.latchEmpty.head = s.head := rfl
@[simp] theorem State.latchEmpty_tail (s : State) : s.latchEmpty.tail = s.tail := rfl
@[simp] theorem State.latchEmpty_overrunCount (s : State) : s.latchEmpty.overrunCount = s.overrunCount := rfl
@[simp] theorem State.latchEmpty_activeAddress (s : State) : s.latchEmpty.activeAddress = s.activeAddress := rfl
@[simp] theorem State.latchEmpty_stagedAddress (s : State) : s.latchEmpty.stagedAddress = s.stagedAddress := rfl
@[simp] theorem State.latchEmpty_trim (s : State) : s.latchEmpty.trim = s.trim := rfl
@[simp] theorem State.latchEmpty_commitRequested (s : State) : s.latchEmpty.commitRequested = s.commitRequested := rfl
@[simp] theorem State.latchEmpty_inbox (s : State) : s.latchEmpty.inbox = s.inbox := rfl
@[simp] theorem State.latchEmpty_trace (s : State) : s.latchEmpty.trace = s.trace := rfl

/-! ### State.advanceTail -/

@[simp] theorem State.advanceTail_params (s : State) : s.advanceTail.params = s.params := rfl
@[simp] theorem State.advanceTail_activeCommand (s : State) : s.advanceTail.activeCommand = s.activeCommand := rfl
@[simp] theorem State.advanceTail_byteIndex (s : State) : s.advanceTail.byteIndex = s.byteIndex := rfl
@[simp] theorem State.advanceTail_busDir (s : State) : s.advanceTail.busDir = s.busDir := rfl
@[simp] theorem State.advanceTail_periodLo (s : State) : s.advanceTail.periodLo = s.periodLo := rfl
@[simp] theorem State.advanceTail_commitArm (s : State) : s.advanceTail.commitArm = s.commitArm := rfl
@[simp] theorem State.advanceTail_tickSnap (s : State) : s.advanceTail.tickSnap = s.tickSnap := rfl
@[simp] theorem State.advanceTail_rdEmpty (s : State) : s.advanceTail.rdEmpty = s.rdEmpty := rfl
@[simp] theorem State.advanceTail_mode (s : State) : s.advanceTail.mode = s.mode := rfl
@[simp] theorem State.advanceTail_ctrlRun (s : State) : s.advanceTail.ctrlRun = s.ctrlRun := rfl
@[simp] theorem State.advanceTail_ctrlMode (s : State) : s.advanceTail.ctrlMode = s.ctrlMode := rfl
@[simp] theorem State.advanceTail_targetPeriod (s : State) : s.advanceTail.targetPeriod = s.targetPeriod := rfl
@[simp] theorem State.advanceTail_currentCountdown (s : State) : s.advanceTail.currentCountdown = s.currentCountdown := rfl
@[simp] theorem State.advanceTail_cumulativeTicks (s : State) : s.advanceTail.cumulativeTicks = s.cumulativeTicks := rfl
@[simp] theorem State.advanceTail_auxOut (s : State) : s.advanceTail.auxOut = s.auxOut := rfl
@[simp] theorem State.advanceTail_oscTrimOut (s : State) : s.advanceTail.oscTrimOut = s.oscTrimOut := rfl
@[simp] theorem State.advanceTail_seqPhase (s : State) : s.advanceTail.seqPhase = s.seqPhase := rfl
@[simp] theorem State.advanceTail_resA (s : State) : s.advanceTail.resA = s.resA := rfl
@[simp] theorem State.advanceTail_discardInFlight (s : State) : s.advanceTail.discardInFlight = s.discardInFlight := rfl
@[simp] theorem State.advanceTail_pendingStart (s : State) : s.advanceTail.pendingStart = s.pendingStart := rfl
@[simp] theorem State.advanceTail_buf (s : State) : s.advanceTail.buf = s.buf := rfl
@[simp] theorem State.advanceTail_head (s : State) : s.advanceTail.head = s.head := rfl
@[simp] theorem State.advanceTail_tail (s : State) : s.advanceTail.tail = if s.mode = .single then s.tail else s.slotAfter s.tail := rfl
@[simp] theorem State.advanceTail_overrunCount (s : State) : s.advanceTail.overrunCount = s.overrunCount := rfl
@[simp] theorem State.advanceTail_activeAddress (s : State) : s.advanceTail.activeAddress = s.activeAddress := rfl
@[simp] theorem State.advanceTail_stagedAddress (s : State) : s.advanceTail.stagedAddress = s.stagedAddress := rfl
@[simp] theorem State.advanceTail_trim (s : State) : s.advanceTail.trim = s.trim := rfl
@[simp] theorem State.advanceTail_commitRequested (s : State) : s.advanceTail.commitRequested = s.commitRequested := rfl
@[simp] theorem State.advanceTail_inbox (s : State) : s.advanceTail.inbox = s.inbox := rfl
@[simp] theorem State.advanceTail_trace (s : State) : s.advanceTail.trace = s.trace := rfl

/-! ### State.fifoReset -/

@[simp] theorem State.fifoReset_params (s : State) : s.fifoReset.params = s.params := rfl
@[simp] theorem State.fifoReset_activeCommand (s : State) : s.fifoReset.activeCommand = s.activeCommand := rfl
@[simp] theorem State.fifoReset_byteIndex (s : State) : s.fifoReset.byteIndex = s.byteIndex := rfl
@[simp] theorem State.fifoReset_busDir (s : State) : s.fifoReset.busDir = s.busDir := rfl
@[simp] theorem State.fifoReset_periodLo (s : State) : s.fifoReset.periodLo = s.periodLo := rfl
@[simp] theorem State.fifoReset_commitArm (s : State) : s.fifoReset.commitArm = s.commitArm := rfl
@[simp] theorem State.fifoReset_tickSnap (s : State) : s.fifoReset.tickSnap = s.tickSnap := rfl
@[simp] theorem State.fifoReset_rdEmpty (s : State) : s.fifoReset.rdEmpty = s.rdEmpty := rfl
@[simp] theorem State.fifoReset_mode (s : State) : s.fifoReset.mode = s.mode := rfl
@[simp] theorem State.fifoReset_ctrlRun (s : State) : s.fifoReset.ctrlRun = s.ctrlRun := rfl
@[simp] theorem State.fifoReset_ctrlMode (s : State) : s.fifoReset.ctrlMode = s.ctrlMode := rfl
@[simp] theorem State.fifoReset_targetPeriod (s : State) : s.fifoReset.targetPeriod = s.targetPeriod := rfl
@[simp] theorem State.fifoReset_currentCountdown (s : State) : s.fifoReset.currentCountdown = s.currentCountdown := rfl
@[simp] theorem State.fifoReset_cumulativeTicks (s : State) : s.fifoReset.cumulativeTicks = s.cumulativeTicks := rfl
@[simp] theorem State.fifoReset_auxOut (s : State) : s.fifoReset.auxOut = s.auxOut := rfl
@[simp] theorem State.fifoReset_oscTrimOut (s : State) : s.fifoReset.oscTrimOut = s.oscTrimOut := rfl
@[simp] theorem State.fifoReset_seqPhase (s : State) : s.fifoReset.seqPhase = s.seqPhase := rfl
@[simp] theorem State.fifoReset_resA (s : State) : s.fifoReset.resA = s.resA := rfl
@[simp] theorem State.fifoReset_discardInFlight (s : State) : s.fifoReset.discardInFlight = s.discardInFlight := rfl
@[simp] theorem State.fifoReset_pendingStart (s : State) : s.fifoReset.pendingStart = s.pendingStart := rfl
@[simp] theorem State.fifoReset_buf (s : State) : s.fifoReset.buf = s.buf := rfl
@[simp] theorem State.fifoReset_head (s : State) : s.fifoReset.head = 0 := rfl
@[simp] theorem State.fifoReset_tail (s : State) : s.fifoReset.tail = 0 := rfl
@[simp] theorem State.fifoReset_overrunCount (s : State) : s.fifoReset.overrunCount = 0 := rfl
@[simp] theorem State.fifoReset_activeAddress (s : State) : s.fifoReset.activeAddress = s.activeAddress := rfl
@[simp] theorem State.fifoReset_stagedAddress (s : State) : s.fifoReset.stagedAddress = s.stagedAddress := rfl
@[simp] theorem State.fifoReset_trim (s : State) : s.fifoReset.trim = s.trim := rfl
@[simp] theorem State.fifoReset_commitRequested (s : State) : s.fifoReset.commitRequested = s.commitRequested := rfl
@[simp] theorem State.fifoReset_inbox (s : State) : s.fifoReset.inbox = s.inbox := rfl
@[simp] theorem State.fifoReset_trace (s : State) : s.fifoReset.trace = s.trace := rfl

/-! ### State.latchControl -/

@[simp] theorem State.latchControl_params (s : State) (b : Byte) : (s.latchControl b).params = s.params := rfl
@[simp] theorem State.latchControl_activeCommand (s : State) (b : Byte) : (s.latchControl b).activeCommand = s.activeCommand := rfl
@[simp] theorem State.latchControl_byteIndex (s : State) (b : Byte) : (s.latchControl b).byteIndex = s.byteIndex := rfl
@[simp] theorem State.latchControl_busDir (s : State) (b : Byte) : (s.latchControl b).busDir = s.busDir := rfl
@[simp] theorem State.latchControl_periodLo (s : State) (b : Byte) : (s.latchControl b).periodLo = s.periodLo := rfl
@[simp] theorem State.latchControl_commitArm (s : State) (b : Byte) : (s.latchControl b).commitArm = s.commitArm := rfl
@[simp] theorem State.latchControl_tickSnap (s : State) (b : Byte) : (s.latchControl b).tickSnap = s.tickSnap := rfl
@[simp] theorem State.latchControl_rdEmpty (s : State) (b : Byte) : (s.latchControl b).rdEmpty = s.rdEmpty := rfl
@[simp] theorem State.latchControl_mode (s : State) (b : Byte) : (s.latchControl b).mode = s.mode := rfl
@[simp] theorem State.latchControl_ctrlRun (s : State) (b : Byte) : (s.latchControl b).ctrlRun = controlRun b := rfl
@[simp] theorem State.latchControl_ctrlMode (s : State) (b : Byte) : (s.latchControl b).ctrlMode = controlMode b := rfl
@[simp] theorem State.latchControl_targetPeriod (s : State) (b : Byte) : (s.latchControl b).targetPeriod = s.targetPeriod := rfl
@[simp] theorem State.latchControl_currentCountdown (s : State) (b : Byte) : (s.latchControl b).currentCountdown = s.currentCountdown := rfl
@[simp] theorem State.latchControl_cumulativeTicks (s : State) (b : Byte) : (s.latchControl b).cumulativeTicks = s.cumulativeTicks := rfl
@[simp] theorem State.latchControl_auxOut (s : State) (b : Byte) : (s.latchControl b).auxOut = s.auxOut := rfl
@[simp] theorem State.latchControl_oscTrimOut (s : State) (b : Byte) : (s.latchControl b).oscTrimOut = s.oscTrimOut := rfl
@[simp] theorem State.latchControl_seqPhase (s : State) (b : Byte) : (s.latchControl b).seqPhase = s.seqPhase := rfl
@[simp] theorem State.latchControl_resA (s : State) (b : Byte) : (s.latchControl b).resA = s.resA := rfl
@[simp] theorem State.latchControl_discardInFlight (s : State) (b : Byte) : (s.latchControl b).discardInFlight = (s.busy || s.discardInFlight) := rfl
@[simp] theorem State.latchControl_pendingStart (s : State) (b : Byte) : (s.latchControl b).pendingStart = false := rfl
@[simp] theorem State.latchControl_buf (s : State) (b : Byte) : (s.latchControl b).buf = s.buf := rfl
@[simp] theorem State.latchControl_head (s : State) (b : Byte) : (s.latchControl b).head = s.head := rfl
@[simp] theorem State.latchControl_tail (s : State) (b : Byte) : (s.latchControl b).tail = s.tail := rfl
@[simp] theorem State.latchControl_overrunCount (s : State) (b : Byte) : (s.latchControl b).overrunCount = s.overrunCount := rfl
@[simp] theorem State.latchControl_activeAddress (s : State) (b : Byte) : (s.latchControl b).activeAddress = s.activeAddress := rfl
@[simp] theorem State.latchControl_stagedAddress (s : State) (b : Byte) : (s.latchControl b).stagedAddress = s.stagedAddress := rfl
@[simp] theorem State.latchControl_trim (s : State) (b : Byte) : (s.latchControl b).trim = s.trim := rfl
@[simp] theorem State.latchControl_commitRequested (s : State) (b : Byte) : (s.latchControl b).commitRequested = s.commitRequested := rfl
@[simp] theorem State.latchControl_inbox (s : State) (b : Byte) : (s.latchControl b).inbox = s.inbox := rfl
@[simp] theorem State.latchControl_trace (s : State) (b : Byte) : (s.latchControl b).trace = s.trace := rfl

/-! ### State.offEntry -/

@[simp] theorem State.offEntry_params (s : State) : s.offEntry.params = s.params := rfl
@[simp] theorem State.offEntry_activeCommand (s : State) : s.offEntry.activeCommand = s.activeCommand := rfl
@[simp] theorem State.offEntry_byteIndex (s : State) : s.offEntry.byteIndex = s.byteIndex := rfl
@[simp] theorem State.offEntry_busDir (s : State) : s.offEntry.busDir = s.busDir := rfl
@[simp] theorem State.offEntry_periodLo (s : State) : s.offEntry.periodLo = s.periodLo := rfl
@[simp] theorem State.offEntry_commitArm (s : State) : s.offEntry.commitArm = s.commitArm := rfl
@[simp] theorem State.offEntry_tickSnap (s : State) : s.offEntry.tickSnap = s.tickSnap := rfl
@[simp] theorem State.offEntry_rdEmpty (s : State) : s.offEntry.rdEmpty = s.rdEmpty := rfl
@[simp] theorem State.offEntry_mode (s : State) : s.offEntry.mode = .off := rfl
@[simp] theorem State.offEntry_ctrlRun (s : State) : s.offEntry.ctrlRun = s.ctrlRun := rfl
@[simp] theorem State.offEntry_ctrlMode (s : State) : s.offEntry.ctrlMode = s.ctrlMode := rfl
@[simp] theorem State.offEntry_targetPeriod (s : State) : s.offEntry.targetPeriod = s.targetPeriod := rfl
@[simp] theorem State.offEntry_currentCountdown (s : State) : s.offEntry.currentCountdown = s.currentCountdown := rfl
@[simp] theorem State.offEntry_cumulativeTicks (s : State) : s.offEntry.cumulativeTicks = s.cumulativeTicks := rfl
@[simp] theorem State.offEntry_auxOut (s : State) : s.offEntry.auxOut = s.auxOut := rfl
@[simp] theorem State.offEntry_oscTrimOut (s : State) : s.offEntry.oscTrimOut = s.oscTrimOut := rfl
@[simp] theorem State.offEntry_seqPhase (s : State) : s.offEntry.seqPhase = s.seqPhase := rfl
@[simp] theorem State.offEntry_resA (s : State) : s.offEntry.resA = s.resA := rfl
@[simp] theorem State.offEntry_discardInFlight (s : State) : s.offEntry.discardInFlight = s.discardInFlight := rfl
@[simp] theorem State.offEntry_pendingStart (s : State) : s.offEntry.pendingStart = s.pendingStart := rfl
@[simp] theorem State.offEntry_buf (s : State) : s.offEntry.buf = s.buf := rfl
@[simp] theorem State.offEntry_head (s : State) : s.offEntry.head = 0 := rfl
@[simp] theorem State.offEntry_tail (s : State) : s.offEntry.tail = 0 := rfl
@[simp] theorem State.offEntry_overrunCount (s : State) : s.offEntry.overrunCount = 0 := rfl
@[simp] theorem State.offEntry_activeAddress (s : State) : s.offEntry.activeAddress = s.activeAddress := rfl
@[simp] theorem State.offEntry_stagedAddress (s : State) : s.offEntry.stagedAddress = s.stagedAddress := rfl
@[simp] theorem State.offEntry_trim (s : State) : s.offEntry.trim = s.trim := rfl
@[simp] theorem State.offEntry_commitRequested (s : State) : s.offEntry.commitRequested = s.commitRequested := rfl
@[simp] theorem State.offEntry_inbox (s : State) : s.offEntry.inbox = s.inbox := rfl
@[simp] theorem State.offEntry_trace (s : State) : s.offEntry.trace = s.trace := rfl

/-! ### State.triggerEntry -/

@[simp] theorem State.triggerEntry_params (s : State) : s.triggerEntry.params = s.params := rfl
@[simp] theorem State.triggerEntry_activeCommand (s : State) : s.triggerEntry.activeCommand = s.activeCommand := rfl
@[simp] theorem State.triggerEntry_byteIndex (s : State) : s.triggerEntry.byteIndex = s.byteIndex := rfl
@[simp] theorem State.triggerEntry_busDir (s : State) : s.triggerEntry.busDir = s.busDir := rfl
@[simp] theorem State.triggerEntry_periodLo (s : State) : s.triggerEntry.periodLo = s.periodLo := rfl
@[simp] theorem State.triggerEntry_commitArm (s : State) : s.triggerEntry.commitArm = s.commitArm := rfl
@[simp] theorem State.triggerEntry_tickSnap (s : State) : s.triggerEntry.tickSnap = s.tickSnap := rfl
@[simp] theorem State.triggerEntry_rdEmpty (s : State) : s.triggerEntry.rdEmpty = s.rdEmpty := rfl
@[simp] theorem State.triggerEntry_mode (s : State) : s.triggerEntry.mode = .trigger := rfl
@[simp] theorem State.triggerEntry_ctrlRun (s : State) : s.triggerEntry.ctrlRun = s.ctrlRun := rfl
@[simp] theorem State.triggerEntry_ctrlMode (s : State) : s.triggerEntry.ctrlMode = s.ctrlMode := rfl
@[simp] theorem State.triggerEntry_targetPeriod (s : State) : s.triggerEntry.targetPeriod = s.targetPeriod := rfl
@[simp] theorem State.triggerEntry_currentCountdown (s : State) : s.triggerEntry.currentCountdown = s.currentCountdown := rfl
@[simp] theorem State.triggerEntry_cumulativeTicks (s : State) : s.triggerEntry.cumulativeTicks = s.cumulativeTicks := rfl
@[simp] theorem State.triggerEntry_auxOut (s : State) : s.triggerEntry.auxOut = s.auxOut := rfl
@[simp] theorem State.triggerEntry_oscTrimOut (s : State) : s.triggerEntry.oscTrimOut = s.oscTrimOut := rfl
@[simp] theorem State.triggerEntry_seqPhase (s : State) : s.triggerEntry.seqPhase = s.seqPhase := rfl
@[simp] theorem State.triggerEntry_resA (s : State) : s.triggerEntry.resA = s.resA := rfl
@[simp] theorem State.triggerEntry_discardInFlight (s : State) : s.triggerEntry.discardInFlight = s.discardInFlight := rfl
@[simp] theorem State.triggerEntry_pendingStart (s : State) : s.triggerEntry.pendingStart = s.pendingStart := rfl
@[simp] theorem State.triggerEntry_buf (s : State) : s.triggerEntry.buf = s.buf := rfl
@[simp] theorem State.triggerEntry_head (s : State) : s.triggerEntry.head = s.head := rfl
@[simp] theorem State.triggerEntry_tail (s : State) : s.triggerEntry.tail = s.tail := rfl
@[simp] theorem State.triggerEntry_overrunCount (s : State) : s.triggerEntry.overrunCount = s.overrunCount := rfl
@[simp] theorem State.triggerEntry_activeAddress (s : State) : s.triggerEntry.activeAddress = s.activeAddress := rfl
@[simp] theorem State.triggerEntry_stagedAddress (s : State) : s.triggerEntry.stagedAddress = s.stagedAddress := rfl
@[simp] theorem State.triggerEntry_trim (s : State) : s.triggerEntry.trim = s.trim := rfl
@[simp] theorem State.triggerEntry_commitRequested (s : State) : s.triggerEntry.commitRequested = s.commitRequested := rfl
@[simp] theorem State.triggerEntry_inbox (s : State) : s.triggerEntry.inbox = s.inbox := rfl
@[simp] theorem State.triggerEntry_trace (s : State) : s.triggerEntry.trace = s.trace := rfl

/-! ### State.timerEntry -/

@[simp] theorem State.timerEntry_params (s : State) : s.timerEntry.params = s.params := rfl
@[simp] theorem State.timerEntry_activeCommand (s : State) : s.timerEntry.activeCommand = s.activeCommand := rfl
@[simp] theorem State.timerEntry_byteIndex (s : State) : s.timerEntry.byteIndex = s.byteIndex := rfl
@[simp] theorem State.timerEntry_busDir (s : State) : s.timerEntry.busDir = s.busDir := rfl
@[simp] theorem State.timerEntry_periodLo (s : State) : s.timerEntry.periodLo = s.periodLo := rfl
@[simp] theorem State.timerEntry_commitArm (s : State) : s.timerEntry.commitArm = s.commitArm := rfl
@[simp] theorem State.timerEntry_tickSnap (s : State) : s.timerEntry.tickSnap = s.tickSnap := rfl
@[simp] theorem State.timerEntry_rdEmpty (s : State) : s.timerEntry.rdEmpty = s.rdEmpty := rfl
@[simp] theorem State.timerEntry_mode (s : State) : s.timerEntry.mode = .timer := rfl
@[simp] theorem State.timerEntry_ctrlRun (s : State) : s.timerEntry.ctrlRun = s.ctrlRun := rfl
@[simp] theorem State.timerEntry_ctrlMode (s : State) : s.timerEntry.ctrlMode = s.ctrlMode := rfl
@[simp] theorem State.timerEntry_targetPeriod (s : State) : s.timerEntry.targetPeriod = s.targetPeriod := rfl
@[simp] theorem State.timerEntry_currentCountdown (s : State) : s.timerEntry.currentCountdown = s.targetPeriod := rfl
@[simp] theorem State.timerEntry_cumulativeTicks (s : State) : s.timerEntry.cumulativeTicks = 0 := rfl
@[simp] theorem State.timerEntry_auxOut (s : State) : s.timerEntry.auxOut = s.auxOut := rfl
@[simp] theorem State.timerEntry_oscTrimOut (s : State) : s.timerEntry.oscTrimOut = s.trim := rfl
@[simp] theorem State.timerEntry_seqPhase (s : State) : s.timerEntry.seqPhase = s.seqPhase := rfl
@[simp] theorem State.timerEntry_resA (s : State) : s.timerEntry.resA = s.resA := rfl
@[simp] theorem State.timerEntry_discardInFlight (s : State) : s.timerEntry.discardInFlight = s.discardInFlight := rfl
@[simp] theorem State.timerEntry_pendingStart (s : State) : s.timerEntry.pendingStart = s.pendingStart := rfl
@[simp] theorem State.timerEntry_buf (s : State) : s.timerEntry.buf = s.buf := rfl
@[simp] theorem State.timerEntry_head (s : State) : s.timerEntry.head = s.head := rfl
@[simp] theorem State.timerEntry_tail (s : State) : s.timerEntry.tail = s.tail := rfl
@[simp] theorem State.timerEntry_overrunCount (s : State) : s.timerEntry.overrunCount = s.overrunCount := rfl
@[simp] theorem State.timerEntry_activeAddress (s : State) : s.timerEntry.activeAddress = s.activeAddress := rfl
@[simp] theorem State.timerEntry_stagedAddress (s : State) : s.timerEntry.stagedAddress = s.stagedAddress := rfl
@[simp] theorem State.timerEntry_trim (s : State) : s.timerEntry.trim = s.trim := rfl
@[simp] theorem State.timerEntry_commitRequested (s : State) : s.timerEntry.commitRequested = s.commitRequested := rfl
@[simp] theorem State.timerEntry_inbox (s : State) : s.timerEntry.inbox = s.inbox := rfl
@[simp] theorem State.timerEntry_trace (s : State) : s.timerEntry.trace = s.trace := rfl

/-! ### State.autoclearRun -/

@[simp] theorem State.autoclearRun_params (s : State) : s.autoclearRun.params = s.params := rfl
@[simp] theorem State.autoclearRun_activeCommand (s : State) : s.autoclearRun.activeCommand = s.activeCommand := rfl
@[simp] theorem State.autoclearRun_byteIndex (s : State) : s.autoclearRun.byteIndex = s.byteIndex := rfl
@[simp] theorem State.autoclearRun_busDir (s : State) : s.autoclearRun.busDir = s.busDir := rfl
@[simp] theorem State.autoclearRun_periodLo (s : State) : s.autoclearRun.periodLo = s.periodLo := rfl
@[simp] theorem State.autoclearRun_commitArm (s : State) : s.autoclearRun.commitArm = s.commitArm := rfl
@[simp] theorem State.autoclearRun_tickSnap (s : State) : s.autoclearRun.tickSnap = s.tickSnap := rfl
@[simp] theorem State.autoclearRun_rdEmpty (s : State) : s.autoclearRun.rdEmpty = s.rdEmpty := rfl
@[simp] theorem State.autoclearRun_mode (s : State) : s.autoclearRun.mode = s.mode := rfl
@[simp] theorem State.autoclearRun_ctrlRun (s : State) : s.autoclearRun.ctrlRun = (s.ctrlRun && !(s.params.singleAutoclear && s.mode == .single)) := rfl
@[simp] theorem State.autoclearRun_ctrlMode (s : State) : s.autoclearRun.ctrlMode = s.ctrlMode := rfl
@[simp] theorem State.autoclearRun_targetPeriod (s : State) : s.autoclearRun.targetPeriod = s.targetPeriod := rfl
@[simp] theorem State.autoclearRun_currentCountdown (s : State) : s.autoclearRun.currentCountdown = s.currentCountdown := rfl
@[simp] theorem State.autoclearRun_cumulativeTicks (s : State) : s.autoclearRun.cumulativeTicks = s.cumulativeTicks := rfl
@[simp] theorem State.autoclearRun_auxOut (s : State) : s.autoclearRun.auxOut = s.auxOut := rfl
@[simp] theorem State.autoclearRun_oscTrimOut (s : State) : s.autoclearRun.oscTrimOut = s.oscTrimOut := rfl
@[simp] theorem State.autoclearRun_seqPhase (s : State) : s.autoclearRun.seqPhase = s.seqPhase := rfl
@[simp] theorem State.autoclearRun_resA (s : State) : s.autoclearRun.resA = s.resA := rfl
@[simp] theorem State.autoclearRun_discardInFlight (s : State) : s.autoclearRun.discardInFlight = s.discardInFlight := rfl
@[simp] theorem State.autoclearRun_pendingStart (s : State) : s.autoclearRun.pendingStart = s.pendingStart := rfl
@[simp] theorem State.autoclearRun_buf (s : State) : s.autoclearRun.buf = s.buf := rfl
@[simp] theorem State.autoclearRun_head (s : State) : s.autoclearRun.head = s.head := rfl
@[simp] theorem State.autoclearRun_tail (s : State) : s.autoclearRun.tail = s.tail := rfl
@[simp] theorem State.autoclearRun_overrunCount (s : State) : s.autoclearRun.overrunCount = s.overrunCount := rfl
@[simp] theorem State.autoclearRun_activeAddress (s : State) : s.autoclearRun.activeAddress = s.activeAddress := rfl
@[simp] theorem State.autoclearRun_stagedAddress (s : State) : s.autoclearRun.stagedAddress = s.stagedAddress := rfl
@[simp] theorem State.autoclearRun_trim (s : State) : s.autoclearRun.trim = s.trim := rfl
@[simp] theorem State.autoclearRun_commitRequested (s : State) : s.autoclearRun.commitRequested = s.commitRequested := rfl
@[simp] theorem State.autoclearRun_inbox (s : State) : s.autoclearRun.inbox = s.inbox := rfl
@[simp] theorem State.autoclearRun_trace (s : State) : s.autoclearRun.trace = s.trace := rfl

end Sys2Proof.Machine
end

