-- ==== Sys2Proof/Laws/Ops.lean ====
section
/-! SUPPORT. For each shared operation one lemma that says everything it can do; proofs cite these and do not unfold the
operations. -/

namespace Sys2Proof.Machine

/-- A mapped outcome is a next state exactly when the outcome is. -/
theorem mapNext_eq_next {f : State → State} {o : Result} {t : State} :
    mapNext f o = .next t ↔ ∃ u, o = .next u ∧ t = f u := by
  cases o with
  | next u =>
    constructor
    · intro h
      exact ⟨u, rfl, (by injection h with h; exact h.symm)⟩
    · rintro ⟨v, hv, rfl⟩
      injection hv with hv
      rw [hv]
      rfl
  | fault r =>
    constructor
    · intro h; cases h
    · rintro ⟨v, hv, -⟩; cases hv
  | refused r =>
    constructor
    · intro h; cases h
    · rintro ⟨v, hv, -⟩; cases hv

@[simp] theorem mapNext_next (f : State → State) (s : State) : mapNext f (.next s) = .next (f s) := rfl

/-! ### Count -/

/-- The count is below P_N (R23.2). -/
theorem State.count_lt (s : State) (h : 0 < s.params.slots) : s.count < s.params.slots := by
  have h1 := Int.emod_nonneg ((s.head : Int) - s.tail) (b := (s.params.slots : Int)) (by omega)
  have h2 := Int.emod_lt_of_pos ((s.head : Int) - s.tail) (b := (s.params.slots : Int)) (by omega)
  unfold State.count
  omega

/-- The count when the tail is not past the head. -/
theorem State.count_of_le (s : State) (hh : s.head < s.params.slots) (h : s.tail ≤ s.head) :
    s.count = s.head - s.tail := by
  have h1 : ((s.head : Int) - s.tail) % (s.params.slots : Int) = (s.head : Int) - s.tail :=
    Int.emod_eq_of_lt (by omega) (by omega)
  unfold State.count
  omega

/-- The count when the head has wrapped below the tail. -/
theorem State.count_of_lt (s : State) (ht : s.tail < s.params.slots) (h : s.head < s.tail) :
    s.count = s.head + s.params.slots - s.tail := by
  have h1 : ((s.head : Int) - s.tail) % (s.params.slots : Int) = (s.head : Int) - s.tail + s.params.slots := by
    rw [← Int.add_emod_right]
    exact Int.emod_eq_of_lt (by omega) (by omega)
  unfold State.count
  omega

/-- The buffer is empty exactly when head and tail agree (R18). -/
theorem State.count_eq_zero (s : State) (hh : s.head < s.params.slots) (ht : s.tail < s.params.slots) :
    s.count = 0 ↔ s.head = s.tail := by
  rcases Nat.lt_or_ge s.head s.tail with h | h
  · rw [s.count_of_lt ht h]
    omega
  · rw [s.count_of_le hh h]
    omega

/-- The slot after a slot, inside the buffer. -/
theorem State.slotAfter_of_lt (s : State) (i : Nat) (h : i + 1 < s.params.slots) : s.slotAfter i = i + 1 :=
  Nat.mod_eq_of_lt h

/-- The slot after the last slot is slot 0. -/
theorem State.slotAfter_last (s : State) (i : Nat) (h : i + 1 = s.params.slots) : s.slotAfter i = 0 := by
  unfold State.slotAfter
  rw [h]
  exact Nat.mod_self _

/-! ### The ring buffer -/

/-- Everything a push can do when it answers a next state (R65). -/
theorem State.push_cases {s t : State} {a b : BitVec 10} (h : s.push a b = .next t) :
    (s.slotAfter s.head = s.tail ∧ t = { s with overrunCount := overrunBump s.overrunCount }) ∨
    (s.slotAfter s.head ≠ s.tail ∧ s.head < s.params.slots ∧
      t = { s with
        buf := s.buf.write s.head { a := a, b := b, ov := s.overrunCount, valid := true }
        head := s.slotAfter s.head
        overrunCount := 0 }) := by
  unfold State.push at h
  split at h
  · injection h with h
    exact .inl ⟨by assumption, h.symm⟩
  · split at h
    · injection h with h
      exact .inr ⟨by assumption, by assumption, h.symm⟩
    · cases h

/-- A push with `head` a slot answers a next state. -/
theorem State.push_completes (s : State) (a b : BitVec 10) (h : s.head < s.params.slots) :
    ∃ t, s.push a b = .next t := by
  unfold State.push
  split
  · exact ⟨_, rfl⟩
  · exact ⟨_, rfl⟩

/-- Everything the served half of a peek can do when it answers a next state (R68). -/
theorem State.serve_cases {s t : State} {l : SampleLayout} {p : Nat} (h : s.serve l p = .next t) :
    (s.rdEmpty = true ∧ t = s.emit 0x00) ∨
    (s.rdEmpty = false ∧ s.tail < s.params.slots ∧ p ≠ l.cycle ∧ t = s.emit (l.byte (s.buf.read s.tail) p)) ∨
    (s.rdEmpty = false ∧ s.tail < s.params.slots ∧ p = l.cycle ∧
      t = s.advanceTail.emit (l.byte (s.buf.read s.tail) p)) := by
  unfold State.serve at h
  split at h
  · injection h with h
    exact .inl ⟨by assumption, h.symm⟩
  · rename_i he
    split at h
    · injection h with h
      by_cases hp : p = l.cycle
      · rw [if_pos hp] at h
        exact .inr (.inr ⟨by simpa using he, by assumption, hp, h.symm⟩)
      · rw [if_neg hp] at h
        exact .inr (.inl ⟨by simpa using he, by assumption, hp, h.symm⟩)
    · cases h

/-- Everything a peek can do when it answers a next state (R68): past the limit it serves zero, at a cycle's first position
it latches emptiness, then it serves. -/
theorem State.peek_cases {s t : State} {l : SampleLayout} (h : s.peek l = .next t) :
    ((s.byteIndex.toNat < 1 ∨ l.cycle * l.maxSamples < s.byteIndex.toNat) ∧ t = s.emit 0x00) ∨
    (1 ≤ s.byteIndex.toNat ∧ s.byteIndex.toNat ≤ l.cycle * l.maxSamples ∧ l.position s.byteIndex.toNat = 1 ∧
      s.latchEmpty.serve l 1 = .next t) ∨
    (1 ≤ s.byteIndex.toNat ∧ s.byteIndex.toNat ≤ l.cycle * l.maxSamples ∧ l.position s.byteIndex.toNat ≠ 1 ∧
      s.serve l (l.position s.byteIndex.toNat) = .next t) := by
  unfold State.peek at h
  simp only at h
  split at h
  · injection h with h
    exact .inl ⟨by assumption, h.symm⟩
  · rename_i hi
    by_cases hp : l.position s.byteIndex.toNat = 1
    · rw [if_pos hp, hp] at h
      exact .inr (.inl ⟨by omega, by omega, hp, h⟩)
    · rw [if_neg hp] at h
      exact .inr (.inr ⟨by omega, by omega, hp, h⟩)

/-- A peek with `tail` a slot answers a next state. -/
theorem State.peek_completes (s : State) (l : SampleLayout) (h : s.tail < s.params.slots) :
    ∃ t, s.peek l = .next t := by
  have hs : ∀ (u : State) (p : Nat), u.tail < u.params.slots → ∃ t, u.serve l p = .next t := by
    intro u p hu
    unfold State.serve
    split
    · exact ⟨_, rfl⟩
    · exact ⟨_, rfl⟩
  unfold State.peek
  simp only
  split
  · exact ⟨_, rfl⟩
  · split
    · exact hs _ _ h
    · exact hs _ _ h

/-! ### The conversion sequencer -/

/-- Everything a start request can do (R72). -/
theorem State.requestStart_cases (s : State) :
    (s.seqPhase = .idle ∧ s.requestStart = { s with seqPhase := .settleA, trace := s.trace ++ [.settleArm] }) ∨
    (s.seqPhase ≠ .idle ∧ s.discardInFlight = true ∧ s.requestStart = { s with pendingStart := true }) ∨
    (s.seqPhase ≠ .idle ∧ s.discardInFlight = false ∧
      s.requestStart = { s with overrunCount := overrunBump s.overrunCount }) := by
  unfold State.requestStart
  split
  · exact .inl ⟨by assumption, rfl⟩
  · split
    · exact .inr (.inl ⟨by assumption, by assumption, rfl⟩)
    · rename_i h
      exact .inr (.inr ⟨by assumption, by simpa using h, rfl⟩)

/-- Everything a sequence finish can do (R77). -/
theorem State.finish_cases (s : State) :
    (s.pendingStart = true ∧ s.finish =
      { s with discardInFlight := false, pendingStart := false, seqPhase := .settleA,
               trace := s.trace ++ [.settleArm] }) ∨
    (s.pendingStart = false ∧ s.finish = { s with discardInFlight := false, seqPhase := .idle }) := by
  unfold State.finish
  split
  · exact .inl ⟨by assumption, rfl⟩
  · rename_i h
    exact .inr ⟨by simpa using h, rfl⟩

/-- Everything an expired settling delay can do when it answers a next state (R73). -/
theorem State.settleExpired_cases {s t : State} (h : s.settleExpired = .next t) :
    (s.seqPhase = .settleA ∧ t = { s with seqPhase := .convA, trace := s.trace ++ [.adcStart .a] }) ∨
    (s.seqPhase = .settleB ∧ t = { s with seqPhase := .convB, trace := s.trace ++ [.adcStart .b] }) := by
  unfold State.settleExpired at h
  split at h
  · injection h with h
    exact .inl ⟨by assumption, h.symm⟩
  · injection h with h
    exact .inr ⟨by assumption, h.symm⟩
  all_goals cases h

/-- Everything a conversion result can do when it answers a next state (R74, R75, R76). -/
theorem State.conversionDone_cases {s t : State} {v : BitVec 10} (h : s.conversionDone v = .next t) :
    (s.seqPhase = .convA ∧ s.discardInFlight = true ∧ t = { s with resA := v }.finish) ∨
    (s.seqPhase = .convA ∧ s.discardInFlight = false ∧
      t = { s with resA := v, seqPhase := .settleB, trace := s.trace ++ [.settleArm] }) ∨
    (s.seqPhase = .convB ∧ s.discardInFlight = true ∧ t = s.finish) ∨
    (s.seqPhase = .convB ∧ s.discardInFlight = false ∧
      ∃ u, s.push s.resA v = .next u ∧ t = u.autoclearRun.finish) := by
  unfold State.conversionDone at h
  split at h
  · rename_i hp
    injection h with h
    unfold State.channelADone at h
    split at h
    · exact .inl ⟨hp, by assumption, h.symm⟩
    · rename_i hd
      exact .inr (.inl ⟨hp, by simpa using hd, h.symm⟩)
  · rename_i hp
    unfold State.channelBDone at h
    split at h
    · injection h with h
      exact .inr (.inr (.inl ⟨hp, by assumption, h.symm⟩))
    · rename_i hd
      exact .inr (.inr (.inr ⟨hp, by simpa using hd, mapNext_eq_next.1 h⟩))
  all_goals cases h

/-! ### The sampling-mode machine -/

/-- Everything a control write can do (R81): the control bits are latched, then one mode is entered. -/
theorem State.controlWrite_cases (s : State) (b : Byte) :
    (controlRun b = false ∧ s.controlWrite b = (s.latchControl b).offEntry) ∨
    (controlRun b = true ∧ modeSelected (controlMode b) = .single ∧
      s.controlWrite b = (s.latchControl b).singleEntry) ∨
    (controlRun b = true ∧ modeSelected (controlMode b) = .trigger ∧
      s.controlWrite b = (s.latchControl b).triggerEntry) ∨
    (controlRun b = true ∧ modeSelected (controlMode b) = .timer ∧
      s.controlWrite b = (s.latchControl b).timerEntry) := by
  unfold State.controlWrite
  by_cases hr : controlRun b = true
  · rw [if_pos hr]
    cases hm : modeSelected (controlMode b) with
    | off =>
      exfalso
      revert hm
      unfold modeSelected
      split
      · simp
      · split <;> simp
    | single => exact .inr (.inl ⟨hr, rfl, rfl⟩)
    | trigger => exact .inr (.inr (.inl ⟨hr, rfl, rfl⟩))
    | timer => exact .inr (.inr (.inr ⟨hr, rfl, rfl⟩))
  · rw [if_neg hr]
    exact .inl ⟨by simpa using hr, rfl⟩

/-- Everything a tick can do (R87). -/
theorem State.tick_cases (s : State) :
    (s.mode ≠ .timer ∧ s.tick = s) ∨
    (s.mode = .timer ∧ s.currentCountdown ≠ 1 ∧
      s.tick = { s with currentCountdown := s.currentCountdown - 1 }) ∨
    (s.mode = .timer ∧ s.currentCountdown = 1 ∧ s.tick = s.expire) := by
  have hc : ∀ c : BitVec 16, c - 1 = 0 ↔ c = 1 := by
    intro c
    constructor
    · intro h; bv_omega
    · rintro rfl; rfl
  unfold State.tick
  split
  · rename_i hm
    split
    · rename_i h
      exact .inr (.inr ⟨hm, (hc _).1 h, rfl⟩)
    · rename_i h
      exact .inr (.inl ⟨hm, fun e => h ((hc _).2 e), rfl⟩)
  · exact .inl ⟨by assumption, rfl⟩

/-- Everything an edge can do (R88). -/
theorem State.edge_cases (s : State) :
    (s.mode ≠ .trigger ∧ s.edge = s) ∨ (s.mode = .trigger ∧ s.edge = s.requestStart) := by
  unfold State.edge
  split
  · exact .inr ⟨by assumption, rfl⟩
  · exact .inl ⟨by assumption, rfl⟩

/-! ### Settings and reset -/

/-- Everything a commit step can do (R60). -/
theorem State.commit_cases (s : State) :
    (s.commitRequested = false ∧ s.commit = s) ∨
    (s.commitRequested = true ∧ s.commit =
      { s with
        activeAddress := s.stagedAddress
        commitRequested := false
        trace := s.trace ++ [.persistWrite (byteOfAddress s.stagedAddress) (byteOfTrim s.trim)] }) := by
  unfold State.commit
  split
  · exact .inr ⟨by assumption, rfl⟩
  · rename_i h
    exact .inl ⟨by simpa using h, rfl⟩

/-- Everything a reset can do when it answers a next state (R138, R58). -/
theorem State.powerOn_cases {s t : State} {r : BootRecord} (h : s.powerOn r = .next t) :
    addressInRange r.address = true ∧
      t = { State.resetWith s.params r with inbox := s.inbox, trace := s.trace } := by
  unfold State.powerOn at h
  split at h
  · injection h with h
    exact ⟨by assumption, h.symm⟩
  · cases h

end Sys2Proof.Machine
end

