-- ==== Sys2Proof/Laws/PerInstr.lean ====
section
/-! SUPPORT. A statement per instruction: the row that the opcode table gives it selects the key of its encoding, and no
other row does (R57). -/

namespace Sys2Proof.Laws.RowSelectsKey

/-- The place of an instruction's row in the opcode table of Decode.lean. -/
def rowIndex : Instr → Nat
  | .c0wControl _ => 0
  | .c0rControl => 16
  | .c1wPeriod _ => 1
  | .c1rPeriod => 17
  | .c2wCount _ => 2
  | .c2rCount => 18
  | .c3wUnpacked _ => 3
  | .c3rUnpacked => 19
  | .c4wPacked _ => 4
  | .c4rPacked => 20
  | .c5wAddrStage _ => 5
  | .c5rAddrStage => 21
  | .c6wTicks _ => 6
  | .c6rTicks => 22
  | .c7wIdent _ => 7
  | .c7rIdent => 23
  | .c8wTrim _ => 8
  | .c8rTrim => 24
  | .c9wCommit _ => 9
  | .c9rCommit => 25
  | .cxw10to11 _ _ => 10
  | .cxw12to15 _ _ => 11
  | .cxw16to31 _ _ => 12
  | .cxw32to63 _ _ => 13
  | .cxw64to127 _ _ => 14
  | .cxw128to255 _ _ => 15
  | .cxr10to11 _ => 26
  | .cxr12to15 _ => 27
  | .cxr16to31 _ => 28
  | .cxr32to63 _ => 29
  | .cxr64to127 _ => 30
  | .cxr128to255 _ => 31

/-- The key in an instruction's first two bytes. -/
def keyOf (i : Instr) : BitVec 9 :=
  opcodeKey (((encode i).getD 1 0x00).extractLsb' 0 1) ((encode i).getD 0 0x00)

/-- The places of the rows that select a key. -/
def selectedBy (key : BitVec 9) : List Nat :=
  (List.range 32).filter fun k => (opcodeRows[k]?).any fun r => r.selects key

/-- A well-formed instruction's key is selected by its row alone. -/
def Statement (i : Instr) : Prop :=
  i.wellFormed = true → selectedBy (keyOf i) = [rowIndex i]

set_option maxRecDepth 8000 in
/-- The six ranges of unrecognized commands, written. -/
theorem selectedBy_write : ∀ c : Byte, selectedBy (opcodeKey 0#1 c) = [commandRow c] := by
  decide

set_option maxRecDepth 8000 in
/-- The six ranges of unrecognized commands, read. -/
theorem selectedBy_read : ∀ c : Byte, selectedBy (opcodeKey 1#1 c) = [16 + commandRow c] := by
  decide

/-- The row of a command in one of the six ranges. -/
theorem commandRow_of_codeIn (c : Byte) :
    (codeIn 10 11 c = true → commandRow c = 10) ∧ (codeIn 12 15 c = true → commandRow c = 11) ∧
    (codeIn 16 31 c = true → commandRow c = 12) ∧ (codeIn 32 63 c = true → commandRow c = 13) ∧
    (codeIn 64 127 c = true → commandRow c = 14) ∧ (codeIn 128 255 c = true → commandRow c = 15) := by
  revert c
  decide

theorem c0wControl (b : Byte) : Statement (.c0wControl b) := fun _ => selectedBy_write 0x00
theorem c0rControl : Statement .c0rControl := fun _ => selectedBy_read 0x00
theorem c1wPeriod (b : Byte) : Statement (.c1wPeriod b) := fun _ => selectedBy_write 0x01
theorem c1rPeriod : Statement .c1rPeriod := fun _ => selectedBy_read 0x01
theorem c2wCount (b : Byte) : Statement (.c2wCount b) := fun _ => selectedBy_write 0x02
theorem c2rCount : Statement .c2rCount := fun _ => selectedBy_read 0x02
theorem c3wUnpacked (b : Byte) : Statement (.c3wUnpacked b) := fun _ => selectedBy_write 0x03
theorem c3rUnpacked : Statement .c3rUnpacked := fun _ => selectedBy_read 0x03
theorem c4wPacked (b : Byte) : Statement (.c4wPacked b) := fun _ => selectedBy_write 0x04
theorem c4rPacked : Statement .c4rPacked := fun _ => selectedBy_read 0x04
theorem c5wAddrStage (b : Byte) : Statement (.c5wAddrStage b) := fun _ => selectedBy_write 0x05
theorem c5rAddrStage : Statement .c5rAddrStage := fun _ => selectedBy_read 0x05
theorem c6wTicks (b : Byte) : Statement (.c6wTicks b) := fun _ => selectedBy_write 0x06
theorem c6rTicks : Statement .c6rTicks := fun _ => selectedBy_read 0x06
theorem c7wIdent (b : Byte) : Statement (.c7wIdent b) := fun _ => selectedBy_write 0x07
theorem c7rIdent : Statement .c7rIdent := fun _ => selectedBy_read 0x07
theorem c8wTrim (b : Byte) : Statement (.c8wTrim b) := fun _ => selectedBy_write 0x08
theorem c8rTrim : Statement .c8rTrim := fun _ => selectedBy_read 0x08
theorem c9wCommit (b : Byte) : Statement (.c9wCommit b) := fun _ => selectedBy_write 0x09
theorem c9rCommit : Statement .c9rCommit := fun _ => selectedBy_read 0x09

theorem cxw10to11 (c b : Byte) : Statement (.cxw10to11 c b) := fun h =>
  (selectedBy_write c).trans (congrArg (fun k => [k]) ((commandRow_of_codeIn c).1 h))

theorem cxw12to15 (c b : Byte) : Statement (.cxw12to15 c b) := fun h =>
  (selectedBy_write c).trans (congrArg (fun k => [k]) ((commandRow_of_codeIn c).2.1 h))

theorem cxw16to31 (c b : Byte) : Statement (.cxw16to31 c b) := fun h =>
  (selectedBy_write c).trans (congrArg (fun k => [k]) ((commandRow_of_codeIn c).2.2.1 h))

theorem cxw32to63 (c b : Byte) : Statement (.cxw32to63 c b) := fun h =>
  (selectedBy_write c).trans (congrArg (fun k => [k]) ((commandRow_of_codeIn c).2.2.2.1 h))

theorem cxw64to127 (c b : Byte) : Statement (.cxw64to127 c b) := fun h =>
  (selectedBy_write c).trans (congrArg (fun k => [k]) ((commandRow_of_codeIn c).2.2.2.2.1 h))

theorem cxw128to255 (c b : Byte) : Statement (.cxw128to255 c b) := fun h =>
  (selectedBy_write c).trans (congrArg (fun k => [k]) ((commandRow_of_codeIn c).2.2.2.2.2 h))

theorem cxr10to11 (c : Byte) : Statement (.cxr10to11 c) := fun h =>
  (selectedBy_read c).trans (congrArg (fun k => [16 + k]) ((commandRow_of_codeIn c).1 h))

theorem cxr12to15 (c : Byte) : Statement (.cxr12to15 c) := fun h =>
  (selectedBy_read c).trans (congrArg (fun k => [16 + k]) ((commandRow_of_codeIn c).2.1 h))

theorem cxr16to31 (c : Byte) : Statement (.cxr16to31 c) := fun h =>
  (selectedBy_read c).trans (congrArg (fun k => [16 + k]) ((commandRow_of_codeIn c).2.2.1 h))

theorem cxr32to63 (c : Byte) : Statement (.cxr32to63 c) := fun h =>
  (selectedBy_read c).trans (congrArg (fun k => [16 + k]) ((commandRow_of_codeIn c).2.2.2.1 h))

theorem cxr64to127 (c : Byte) : Statement (.cxr64to127 c) := fun h =>
  (selectedBy_read c).trans (congrArg (fun k => [16 + k]) ((commandRow_of_codeIn c).2.2.2.2.1 h))

theorem cxr128to255 (c : Byte) : Statement (.cxr128to255 c) := fun h =>
  (selectedBy_read c).trans (congrArg (fun k => [16 + k]) ((commandRow_of_codeIn c).2.2.2.2.2 h))

end Sys2Proof.Laws.RowSelectsKey
end

