-- ==== Sys2Proof/Laws/Step.lean ====
section
/-! SUPPORT. What a step, a written byte and a requested byte can do, each said once. -/

namespace Sys2Proof.Machine

/-- A step with no event delivered. -/
theorem step_of_empty {s : State} (h : s.inbox = []) : step s = .next s := by
  unfold step
  rw [h]

/-- A step with an event delivered is the event's handler. -/
theorem step_of_event {s : State} {e : Event} {rest : List Event} (h : s.inbox = e :: rest) :
    step s = { s with inbox := rest }.handle e := by
  unfold step
  rw [h]

/-- A step that answers a next state waits, or handles the first event of the inbox. -/
theorem step_cases {s t : State} (h : step s = .next t) :
    (s.inbox = [] ∧ t = s) ∨
    ∃ e rest, s.inbox = e :: rest ∧ State.handle { s with inbox := rest } e = .next t := by
  cases hi : s.inbox with
  | nil =>
    rw [step_of_empty hi] at h
    injection h with h
    exact .inl ⟨rfl, h.symm⟩
  | cons e rest =>
    rw [step_of_event hi] at h
    exact .inr ⟨e, rest, rfl, h⟩

/-- What the write rules can do at position `byteIndex` of command `activeCommand` (R97). -/
inductive WriteEffect (s : State) (b : Byte) : State → Prop where
  | ignored : WriteEffect s b s
  | control (hc : s.activeCommand = 0) (hi : s.byteIndex = 1) : WriteEffect s b (s.controlWrite b)
  | periodLow (hc : s.activeCommand = 1) (hi : s.byteIndex = 1) : WriteEffect s b { s with periodLo := b }
  | periodHigh (hc : s.activeCommand = 1) (hi : s.byteIndex = 2) :
      WriteEffect s b { s with targetPeriod := clampPeriod (periodOfBytes b s.periodLo) }
  | address (hc : s.activeCommand = 5) (hi : s.byteIndex = 1) (hr : addressInRange b = true) :
      WriteEffect s b { s with stagedAddress := addressOfByte b }
  | trim (hc : s.activeCommand = 8) (hi : s.byteIndex = 1) : WriteEffect s b { s with trim := trimOfByte b }
  | arm (hc : s.activeCommand = 9) (hi : s.byteIndex = 1) : WriteEffect s b { s with commitArm := armsCommit b }
  | request (hc : s.activeCommand = 9) (hi : s.byteIndex = 2) :
      WriteEffect s b { s with
        commitRequested := s.commitRequested || completesCommit s.commitArm b, commitArm := false }

/-- What the read rules can do at position `byteIndex` of command `activeCommand` (R98). -/
inductive ReadEffect (s : State) : State → Prop where
  | served (b : Byte) (h3 : s.activeCommand ≠ 3) (h4 : s.activeCommand ≠ 4) : ReadEffect s (s.emit b)
  | snapshot (b : Byte) (hc : s.activeCommand = 6) : ReadEffect s (s.snapshotTicks.emit b)
  | unpacked (t : State) (hc : s.activeCommand = 3) (h : s.peek .unpacked = .next t) : ReadEffect s t
  | packed (t : State) (hc : s.activeCommand = 4) (h : s.peek .packed = .next t) : ReadEffect s t

/-- The bytes of a write instruction run, and what they do is one of the write effects. -/
theorem runBytes_write (s : State) (b : Byte) :
    ∃ t, runBytes (s.writeBytes b) s = .next t ∧ WriteEffect s b t := by
  have run : ∀ (c : Byte) (i : Instr), s.activeCommand = c →
      (opcodeRows[commandRow c]?).bind (fun r => r.buildWrite c b) = some i →
      runBytes (s.writeBytes b) s = exec i s := by
    intro c i hc h
    have hd := decode_write [] h
    unfold runBytes
    rw [show s.writeBytes b = c :: 0x00 :: b :: [] by rw [← hc]; rfl, hd]
  rcases command_cases s.activeCommand with
    (h | h | h | h | h | h | h | h | h | h) | ⟨-, h⟩ | ⟨-, h⟩ | ⟨-, h⟩ | ⟨-, h⟩ | ⟨-, h⟩ | ⟨-, h⟩
  · rw [run 0 (.c0wControl b) h rfl]
    by_cases hi : s.byteIndex = 1
    · exact ⟨s.controlWrite b, by simp only [exec, execC0wControl, if_pos hi], .control h hi⟩
    · exact ⟨s, by simp only [exec, execC0wControl, if_neg hi], .ignored⟩
  · rw [run 1 (.c1wPeriod b) h rfl]
    by_cases hi : s.byteIndex = 1
    · exact ⟨_, by simp only [exec, execC1wPeriod, if_pos hi], .periodLow h hi⟩
    · by_cases h2 : s.byteIndex = 2
      · exact ⟨_, by simp only [exec, execC1wPeriod, if_neg hi, if_pos h2], .periodHigh h h2⟩
      · exact ⟨s, by simp only [exec, execC1wPeriod, if_neg hi, if_neg h2], .ignored⟩
  · rw [run 2 (.c2wCount b) h rfl]
    exact ⟨s, rfl, .ignored⟩
  · rw [run 3 (.c3wUnpacked b) h rfl]
    exact ⟨s, rfl, .ignored⟩
  · rw [run 4 (.c4wPacked b) h rfl]
    exact ⟨s, rfl, .ignored⟩
  · rw [run 5 (.c5wAddrStage b) h rfl]
    by_cases hi : s.byteIndex = 1 ∧ addressInRange b = true
    · exact ⟨_, by simp only [exec, execC5wAddrStage, if_pos hi], .address h hi.1 hi.2⟩
    · exact ⟨s, by simp only [exec, execC5wAddrStage, if_neg hi], .ignored⟩
  · rw [run 6 (.c6wTicks b) h rfl]
    exact ⟨s, rfl, .ignored⟩
  · rw [run 7 (.c7wIdent b) h rfl]
    exact ⟨s, rfl, .ignored⟩
  · rw [run 8 (.c8wTrim b) h rfl]
    by_cases hi : s.byteIndex = 1
    · exact ⟨_, by simp only [exec, execC8wTrim, if_pos hi], .trim h hi⟩
    · exact ⟨s, by simp only [exec, execC8wTrim, if_neg hi], .ignored⟩
  · rw [run 9 (.c9wCommit b) h rfl]
    by_cases hi : s.byteIndex = 1
    · exact ⟨_, by simp only [exec, execC9wCommit, if_pos hi], .arm h hi⟩
    · by_cases h2 : s.byteIndex = 2
      · exact ⟨_, by simp only [exec, execC9wCommit, if_neg hi, if_pos h2], .request h h2⟩
      · exact ⟨s, by simp only [exec, execC9wCommit, if_neg hi, if_neg h2], .ignored⟩
  · rw [run s.activeCommand (.cxw10to11 s.activeCommand b) rfl (by rw [h]; rfl)]
    exact ⟨s, rfl, .ignored⟩
  · rw [run s.activeCommand (.cxw12to15 s.activeCommand b) rfl (by rw [h]; rfl)]
    exact ⟨s, rfl, .ignored⟩
  · rw [run s.activeCommand (.cxw16to31 s.activeCommand b) rfl (by rw [h]; rfl)]
    exact ⟨s, rfl, .ignored⟩
  · rw [run s.activeCommand (.cxw32to63 s.activeCommand b) rfl (by rw [h]; rfl)]
    exact ⟨s, rfl, .ignored⟩
  · rw [run s.activeCommand (.cxw64to127 s.activeCommand b) rfl (by rw [h]; rfl)]
    exact ⟨s, rfl, .ignored⟩
  · rw [run s.activeCommand (.cxw128to255 s.activeCommand b) rfl (by rw [h]; rfl)]
    exact ⟨s, rfl, .ignored⟩

/-- The bytes of a read instruction run its read rule: the outcome is a peek (commands 3, 4) or a read effect. -/
theorem runBytes_read (s : State) :
    (s.activeCommand = 3 ∧ runBytes s.readBytes s = s.peek .unpacked) ∨
    (s.activeCommand = 4 ∧ runBytes s.readBytes s = s.peek .packed) ∨
    (∃ t, runBytes s.readBytes s = .next t ∧ ReadEffect s t) := by
  have run : ∀ (c : Byte) (i : Instr), s.activeCommand = c →
      (opcodeRows[16 + commandRow c]?).bind (fun r => r.buildRead c) = some i →
      runBytes s.readBytes s = exec i s := by
    intro c i hc h
    have hd := decode_read [] h
    unfold runBytes
    rw [show s.readBytes = c :: 0x01 :: [] by rw [← hc]; rfl, hd]
  have not3 : ∀ k, commandRow s.activeCommand = k → k ≠ 3 → s.activeCommand ≠ 3 := by
    intro k h hk e
    rw [e] at h
    exact hk h.symm
  have not4 : ∀ k, commandRow s.activeCommand = k → k ≠ 4 → s.activeCommand ≠ 4 := by
    intro k h hk e
    rw [e] at h
    exact hk h.symm
  rcases command_cases s.activeCommand with
    (h | h | h | h | h | h | h | h | h | h) | ⟨-, h⟩ | ⟨-, h⟩ | ⟨-, h⟩ | ⟨-, h⟩ | ⟨-, h⟩ | ⟨-, h⟩
  · rw [run 0 .c0rControl h rfl]
    exact .inr (.inr ⟨_, rfl, .served _ (by rw [h]; decide) (by rw [h]; decide)⟩)
  · rw [run 1 .c1rPeriod h rfl]
    exact .inr (.inr ⟨_, rfl, .served _ (by rw [h]; decide) (by rw [h]; decide)⟩)
  · rw [run 2 .c2rCount h rfl]
    exact .inr (.inr ⟨_, rfl, .served _ (by rw [h]; decide) (by rw [h]; decide)⟩)
  · exact .inl ⟨h, run 3 .c3rUnpacked h rfl⟩
  · exact .inr (.inl ⟨h, run 4 .c4rPacked h rfl⟩)
  · rw [run 5 .c5rAddrStage h rfl]
    exact .inr (.inr ⟨_, rfl, .served _ (by rw [h]; decide) (by rw [h]; decide)⟩)
  · rw [run 6 .c6rTicks h rfl]
    exact .inr (.inr ⟨_, rfl, .snapshot _ h⟩)
  · rw [run 7 .c7rIdent h rfl]
    exact .inr (.inr ⟨_, rfl, .served _ (by rw [h]; decide) (by rw [h]; decide)⟩)
  · rw [run 8 .c8rTrim h rfl]
    exact .inr (.inr ⟨_, rfl, .served _ (by rw [h]; decide) (by rw [h]; decide)⟩)
  · rw [run 9 .c9rCommit h rfl]
    exact .inr (.inr ⟨_, rfl, .served _ (by rw [h]; decide) (by rw [h]; decide)⟩)
  · rw [run s.activeCommand (.cxr10to11 s.activeCommand) rfl (by rw [h]; rfl)]
    exact .inr (.inr ⟨_, rfl, .served _ (not3 _ h (by decide)) (not4 _ h (by decide))⟩)
  · rw [run s.activeCommand (.cxr12to15 s.activeCommand) rfl (by rw [h]; rfl)]
    exact .inr (.inr ⟨_, rfl, .served _ (not3 _ h (by decide)) (not4 _ h (by decide))⟩)
  · rw [run s.activeCommand (.cxr16to31 s.activeCommand) rfl (by rw [h]; rfl)]
    exact .inr (.inr ⟨_, rfl, .served _ (not3 _ h (by decide)) (not4 _ h (by decide))⟩)
  · rw [run s.activeCommand (.cxr32to63 s.activeCommand) rfl (by rw [h]; rfl)]
    exact .inr (.inr ⟨_, rfl, .served _ (not3 _ h (by decide)) (not4 _ h (by decide))⟩)
  · rw [run s.activeCommand (.cxr64to127 s.activeCommand) rfl (by rw [h]; rfl)]
    exact .inr (.inr ⟨_, rfl, .served _ (not3 _ h (by decide)) (not4 _ h (by decide))⟩)
  · rw [run s.activeCommand (.cxr128to255 s.activeCommand) rfl (by rw [h]; rfl)]
    exact .inr (.inr ⟨_, rfl, .served _ (not3 _ h (by decide)) (not4 _ h (by decide))⟩)

/-- Everything a written byte can do when it answers a next state (R94, R97). -/
theorem State.byteWritten_cases {s t : State} {b : Byte} (h : s.byteWritten b = .next t) :
    s.busDir = .write ∧
      ((s.byteIndex = 0 ∧ t = { s with activeCommand := b }.advanceIndex) ∨
       (s.byteIndex ≠ 0 ∧ ∃ u, WriteEffect s b u ∧ t = u.advanceIndex)) := by
  unfold State.byteWritten at h
  split at h
  · refine ⟨by assumption, ?_⟩
    split at h
    · injection h with h
      exact .inl ⟨by assumption, h.symm⟩
    · obtain ⟨u, hu, rfl⟩ := mapNext_eq_next.1 h
      obtain ⟨v, hv, he⟩ := runBytes_write s b
      rw [hv] at hu
      injection hu with hu
      exact .inr ⟨by assumption, u, hu ▸ he, rfl⟩
  · cases h

/-- Everything a requested byte can do when it answers a next state (R95, R98). -/
theorem State.byteRequested_cases {s t : State} (h : s.byteRequested = .next t) :
    s.busDir = .read ∧ ReadEffect s.advanceIndex t := by
  unfold State.byteRequested at h
  split at h
  · refine ⟨by assumption, ?_⟩
    rw [show s.readBytes = s.advanceIndex.readBytes from rfl] at h
    rcases runBytes_read s.advanceIndex with ⟨hc, hr⟩ | ⟨hc, hr⟩ | ⟨u, hr, he⟩
    · rw [hr] at h
      exact .unpacked t hc h
    · rw [hr] at h
      exact .packed t hc h
    · rw [hr] at h
      injection h with h
      exact h ▸ he
  · cases h

end Sys2Proof.Machine
end

