-- ==== Sys2Proof/Laws/Run.lean ====
section
/-! SUPPORT. Runs of events, one event at a time (R56). -/

namespace Sys2Proof.Machine

/-- A run whose first step answers a next state goes on from that state. -/
theorem run_succ_of_next (M : Host.Core) (n : Nat) (s t : M.State) (h : M.step s = .next t) :
    M.run (n + 1) s = M.run n t := by
  simp only [Host.Core.run, h]

/-- The same of this machine's step. -/
theorem core_run_of_next (n : Nat) {s t : State} (h : step s = .next t) :
    Host.Core.run Sys2Proof.core (n + 1) s = Host.Core.run Sys2Proof.core n t :=
  run_succ_of_next Sys2Proof.core n s t h

/-- A run of no events. -/
theorem runEvents_nil (s : State) : runEvents s [] = .next { s with inbox := [] } := rfl

/-- A run of events handles its first event, whatever the events behind it, and goes on. -/
theorem runEvents_cons {s t : State} {e : Event} (es : List Event)
    (h : ∀ es, State.handle { s with inbox := es } e = .next { t with inbox := es }) :
    runEvents s (e :: es) = runEvents t es :=
  core_run_of_next es.length (s := { s with inbox := e :: es }) (h es)

/-- An address match in a run (R93). -/
theorem runEvents_addrMatch (s : State) (d : Dir) (es : List Event) :
    runEvents s (.addrMatch d :: es) = runEvents (s.matchAddress d) es :=
  runEvents_cons es fun _ => rfl

/-- The command byte in a run (R94). -/
theorem runEvents_command {s : State} (c : Byte) (es : List Event) (hd : s.busDir = .write) (hi : s.byteIndex = 0) :
    runEvents s (.byteWritten c :: es) = runEvents { s with activeCommand := c, byteIndex := 1 } es := by
  refine runEvents_cons es fun es => ?_
  show State.byteWritten { s with inbox := es } c = _
  unfold State.byteWritten
  rw [if_pos hd, if_pos hi]
  unfold State.advanceIndex
  rw [show ({ s with inbox := es, activeCommand := c } : State).byteIndex = 0 from hi]
  rfl

/-- A data byte in a run: its instruction's meaning, then the index advances (R94, R97). -/
theorem runEvents_data {s t : State} {b : Byte} {i : Instr} (es : List Event) (hd : s.busDir = .write)
    (hi : s.byteIndex ≠ 0) (hk : decode [s.activeCommand, 0x00, b] = .ok (i, []))
    (he : ∀ es, exec i { s with inbox := es } = .next { t with inbox := es }) :
    runEvents s (.byteWritten b :: es) = runEvents t.advanceIndex es := by
  refine runEvents_cons es fun es => ?_
  show State.byteWritten { s with inbox := es } b = _
  unfold State.byteWritten
  rw [if_pos hd, if_neg hi]
  unfold runBytes
  rw [show ({ s with inbox := es } : State).writeBytes b = [s.activeCommand, 0x00, b] from rfl, hk]
  dsimp only
  rw [he]
  rfl

/-- A requested byte in a run: the index advances, then its instruction's meaning (R95, R98). -/
theorem runEvents_request {s t : State} {i : Instr} (es : List Event) (hd : s.busDir = .read)
    (hk : decode [s.activeCommand, 0x01] = .ok (i, []))
    (he : ∀ es, exec i { s.advanceIndex with inbox := es } = .next { t with inbox := es }) :
    runEvents s (.byteRequested :: es) = runEvents t es := by
  refine runEvents_cons es fun es => ?_
  show State.byteRequested { s with inbox := es } = _
  unfold State.byteRequested
  rw [if_pos hd]
  unfold runBytes
  rw [show ({ s with inbox := es } : State).readBytes = [s.activeCommand, 0x01] from rfl, hk]
  exact he es

end Sys2Proof.Machine
end

