-- ==== Sys2Proof/Tests/Slice0.lean ====
section
/-! SUPPORT. The model's own tests. Expected values come from spec/95_test_vectors.md (cited by section) or from the rule
named. The witnesses at the end meet the hypotheses of the statements in Certificates/Slice0/Obligations.lean. -/

namespace Sys2Proof.Tests

open Sys2Proof Sys2Proof.Machine

/-- The outcome is a next state with property p. -/
def nextIs (o : Result) (p : State → Bool) : Bool :=
  match o with
  | .next t => p t
  | .fault _ => false
  | .refused _ => false

/-- The outcome is this refusal. -/
def refusedAs (o : Result) (r : Refusal) : Bool :=
  match o with
  | .next _ => false
  | .fault _ => false
  | .refused q => decide (q = r)

/-- The outcome is a next state whose newest output is this byte on the bus. -/
def serves (o : Result) (b : Byte) : Bool :=
  nextIs o fun t => decide (t.trace.getLast? = some (.busData b))

/-- Parameters for the tests: P_N = 4 (program P4 of spec/95_test_vectors.md), period 100 after reset. -/
def testParams : Params := ⟨4, 0x41, 0x32, 0x01, 0x02, 100, false⟩

/-- The state after reset with the boot record of spec/95_test_vectors.md, {0x48, 0x3F}. -/
def base : State := State.resetWith testParams ⟨0x48, 0x3F⟩

/-- A write transaction of command c at data position i, with these events next. -/
def writing (c i : Byte) (es : List Event) : State :=
  { base with busDir := .write, activeCommand := c, byteIndex := i, inbox := es }

/-- A read transaction of command c after i bytes, with these events next. -/
def reading (c i : Byte) (es : List Event) : State :=
  { base with busDir := .read, activeCommand := c, byteIndex := i, inbox := es }

/-- Two samples in the buffer, {500, 300, 2, 1} and {1, 2, 3, 1}, in Trigger mode (section 2.1). -/
def twoSamples (s : State) : State :=
  { s with mode := .trigger, ctrlRun := true, ctrlMode := 0b10,
           buf := [(0, ⟨500, 300, 2, true⟩), (1, ⟨1, 2, 3, true⟩)], head := 2 }

/-! ### Well-formedness: an ill-formed term for each check -/

theorem test_ill_formed_writes_refused :
    [Instr.cxw10to11 9 0, .cxw10to11 12 0, .cxw12to15 11 0, .cxw12to15 16 0, .cxw16to31 15 0, .cxw16to31 32 0,
     .cxw32to63 31 0, .cxw32to63 64 0, .cxw64to127 63 0, .cxw64to127 128 0, .cxw128to255 127 0].all
      (fun i => !i.wellFormed) = true := by decide

theorem test_ill_formed_reads_refused :
    [Instr.cxr10to11 9, .cxr10to11 12, .cxr12to15 11, .cxr12to15 16, .cxr16to31 15, .cxr16to31 32,
     .cxr32to63 31, .cxr32to63 64, .cxr64to127 63, .cxr64to127 128, .cxr128to255 127].all
      (fun i => !i.wellFormed) = true := by decide

theorem test_range_bounds_well_formed :
    [Instr.cxw10to11 10 0, .cxw10to11 11 0, .cxw12to15 12 0, .cxw12to15 15 0, .cxw16to31 16 0, .cxw16to31 31 0,
     .cxw32to63 32 0, .cxw32to63 63 0, .cxw64to127 64 0, .cxw64to127 127 0, .cxw128to255 128 0, .cxw128to255 255 0,
     .cxr10to11 10, .cxr12to15 15, .cxr16to31 31, .cxr32to63 32, .cxr64to127 64, .cxr128to255 255].all
      (fun i => i.wellFormed) = true := by decide

/-! ### Decoding: every row's key written out from R57 (bits 7:0 the command, bit 8 the direction), the data byte above -/

theorem test_decode_writes_0_to_4 :
    decodeTableWord 24 0xA50000 = some (.c0wControl 0xA5) ∧ decodeTableWord 24 0x340001 = some (.c1wPeriod 0x34) ∧
    decodeTableWord 24 0x990002 = some (.c2wCount 0x99) ∧ decodeTableWord 24 0x000003 = some (.c3wUnpacked 0x00) ∧
    decodeTableWord 24 0x010004 = some (.c4wPacked 0x01) := by decide

theorem test_decode_writes_5_to_9 :
    decodeTableWord 24 0x210005 = some (.c5wAddrStage 0x21) ∧ decodeTableWord 24 0x000006 = some (.c6wTicks 0x00) ∧
    decodeTableWord 24 0xAA0007 = some (.c7wIdent 0xAA) ∧ decodeTableWord 24 0x3F0008 = some (.c8wTrim 0x3F) ∧
    decodeTableWord 24 0x550009 = some (.c9wCommit 0x55) := by decide

theorem test_decode_reads_0_to_4 :
    decodeTableWord 16 0x100 = some .c0rControl ∧ decodeTableWord 16 0x101 = some .c1rPeriod ∧
    decodeTableWord 16 0x102 = some .c2rCount ∧ decodeTableWord 16 0x103 = some .c3rUnpacked ∧
    decodeTableWord 16 0x104 = some .c4rPacked := by decide

theorem test_decode_reads_5_to_9 :
    decodeTableWord 16 0x105 = some .c5rAddrStage ∧ decodeTableWord 16 0x106 = some .c6rTicks ∧
    decodeTableWord 16 0x107 = some .c7rIdent ∧ decodeTableWord 16 0x108 = some .c8rTrim ∧
    decodeTableWord 16 0x109 = some .c9rCommit := by decide

theorem test_decode_unrecognized_writes :
    decodeTableWord 24 0x01000B = some (.cxw10to11 0x0B 0x01) ∧ decodeTableWord 24 0x01000D = some (.cxw12to15 0x0D 0x01) ∧
    decodeTableWord 24 0x01001F = some (.cxw16to31 0x1F 0x01) ∧ decodeTableWord 24 0x010020 = some (.cxw32to63 0x20 0x01) ∧
    decodeTableWord 24 0x010042 = some (.cxw64to127 0x42 0x01) ∧
    decodeTableWord 24 0x0100FF = some (.cxw128to255 0xFF 0x01) := by decide

theorem test_decode_unrecognized_reads :
    decodeTableWord 16 0x10A = some (.cxr10to11 0x0A) ∧ decodeTableWord 16 0x10E = some (.cxr12to15 0x0E) ∧
    decodeTableWord 16 0x110 = some (.cxr16to31 0x10) ∧ decodeTableWord 16 0x13F = some (.cxr32to63 0x3F) ∧
    decodeTableWord 16 0x17F = some (.cxr64to127 0x7F) ∧ decodeTableWord 16 0x180 = some (.cxr128to255 0x80) := by decide

theorem test_decode_refusals :
    decode [] = .error .truncatedKey ∧ decode [0x00] = .error .truncatedKey ∧
    decode [0x00, 0x02] = .error .reservedKeyBits ∧ decode [0x00, 0x00] = .error .missingDataByte := by decide

/-! ### Commands, by position -/

/-- Section 2.2: `W 0, F9` enters Single and starts (bits 7:3 ignored). -/
theorem test_control_F9_single :
    nextIs (exec (.c0wControl 0xF9) (writing 0 1 [])) (fun t => t.mode == .single && t.seqPhase == .settleA) = true := by
  decide

/-- Section 2.2: `W 0, FF` enters Timer; `W 0, 06` leaves Off with the mode bits stored. -/
theorem test_control_timer_and_stop :
    nextIs (exec (.c0wControl 0xFF) (writing 0 1 [])) (fun t => t.mode == .timer && t.currentCountdown == 100) = true ∧
    nextIs (exec (.c0wControl 0x06) (writing 0 1 [])) (fun t => t.mode == .off && t.ctrlMode == 0b11) = true := by decide

/-- Section 2.2: after `W 0, 06` the control byte reads 06. -/
theorem test_control_read :
    serves (exec .c0rControl { reading 0 1 [] with ctrlMode := 0b11 }) 0x06 = true := by decide

/-- Section 2.3: `W 1, 34, 12` stores 0x1234; `W 1, 01, 00` stores 2. -/
theorem test_period_write :
    nextIs (exec (.c1wPeriod 0x12) { writing 1 2 [] with periodLo := 0x34 }) (fun t => t.targetPeriod == 0x1234) = true ∧
    nextIs (exec (.c1wPeriod 0x00) { writing 1 2 [] with periodLo := 0x01 }) (fun t => t.targetPeriod == 2) = true := by
  decide

/-- Section 2.3: 0x1234 reads 34 12. -/
theorem test_period_read :
    serves (exec .c1rPeriod { reading 1 1 [] with targetPeriod := 0x1234 }) 0x34 = true ∧
    serves (exec .c1rPeriod { reading 1 2 [] with targetPeriod := 0x1234 }) 0x12 = true := by decide

/-- Section 2.4: head 2, tail 38, P_N 40 count 4. -/
theorem test_count_wraps :
    serves (exec .c2rCount { reading 2 1 [] with params := { testParams with slots := 40 }, head := 2, tail := 38 })
      0x04 = true := by decide

/-- Section 2.1: {500, 300, 2, 1} unpacked ends with 29, and `tail` advances. -/
theorem test_unpacked_last_byte :
    serves (exec .c3rUnpacked (twoSamples (reading 3 4 []))) 0x29 = true ∧
    nextIs (exec .c3rUnpacked (twoSamples (reading 3 4 []))) (fun t => t.tail == 1) = true := by decide

/-- Section 2.1: {500, 300, 2, 1} packed is F4 B1 A4, and `tail` advances after the last byte. -/
theorem test_packed_bytes :
    serves (exec .c4rPacked (twoSamples (reading 4 2 []))) 0xB1 = true ∧
    serves (exec .c4rPacked (twoSamples (reading 4 3 []))) 0xA4 = true ∧
    nextIs (exec .c4rPacked (twoSamples (reading 4 3 []))) (fun t => t.tail == 1) = true := by decide

/-- Section 2.1: {341, 682, 5, 1} is 55 01 AA 36 unpacked and 55 A9 DA packed. -/
theorem test_sample_layouts :
    [1, 2, 3, 4].map (unpackedByte ⟨341, 682, 5, true⟩) = [0x55, 0x01, 0xAA, 0x36] ∧
    [1, 2, 3].map (packedByte ⟨341, 682, 5, true⟩) = [0x55, 0xA9, 0xDA] := by decide

/-- Section 2.6: 77 is staged, 83 is not. -/
theorem test_address_stage :
    nextIs (exec (.c5wAddrStage 0x77) (writing 5 1 [])) (fun t => t.stagedAddress == 0x77) = true ∧
    nextIs (exec (.c5wAddrStage 0x83) (writing 5 1 [])) (fun t => t.stagedAddress == 0x48) = true := by decide

/-- Section 2.7: 0x01020304 reads 04 at byte 1 (snapshot taken) and 01 at byte 4. -/
theorem test_tick_counter :
    serves (exec .c6rTicks { reading 6 1 [] with cumulativeTicks := 0x01020304 }) 0x04 = true ∧
    serves (exec .c6rTicks { reading 6 4 [] with tickSnap := 0x01020304 }) 0x01 = true := by decide

/-- Section 2.8: byte 3 is P_VER_MAJOR, byte 5 is 00. -/
theorem test_identity :
    serves (exec .c7rIdent (reading 7 3 [])) 0x01 = true ∧ serves (exec .c7rIdent (reading 7 5 [])) 0x00 = true := by
  decide

/-- Section 2.9: 7F stores -1, 20 stores -32. -/
theorem test_trim_write :
    nextIs (exec (.c8wTrim 0x7F) (writing 8 1 [])) (fun t => t.trim.toInt == -1) = true ∧
    nextIs (exec (.c8wTrim 0x20) (writing 8 1 [])) (fun t => t.trim.toInt == -32) = true := by decide

/-- Section 2.9: -32 reads E0. -/
theorem test_trim_read : serves (exec .c8rTrim { reading 8 1 [] with trim := 0x20 }) 0xE0 = true := by decide

/-- Section 2.10: AA as byte 2 after 55 requests the commit, AA after another byte does not. -/
theorem test_commit_write :
    nextIs (exec (.c9wCommit 0xAA) { writing 9 2 [] with commitArm := true }) (fun t => t.commitRequested) = true ∧
    nextIs (exec (.c9wCommit 0xAA) (writing 9 2 [])) (fun t => !t.commitRequested) = true := by decide

/-- Section 2.11: `W 2, 99` and `W 42, 01` change nothing; `RD FF` and `RD 5` read 00. -/
theorem test_ignored_forms :
    nextIs (exec (.c2wCount 0x99) (writing 2 1 [])) (fun t => t == writing 2 1 []) = true ∧
    nextIs (exec (.cxw64to127 0x42 0x01) (writing 0x42 1 [])) (fun t => t == writing 0x42 1 []) = true ∧
    serves (exec (.cxr128to255 0xFF) (reading 0xFF 1 [])) 0x00 = true ∧
    serves (exec .c5rAddrStage (reading 5 1 [])) 0x00 = true := by decide

/-! ### Handlers -/

/-- With no event delivered the block waits (log entry 2). -/
theorem test_waits_without_events : nextIs (step base) (fun t => t == base) = true := by decide

/-- Section 2.12: a second edge with overrunCount 6 and 7 leaves 7. -/
theorem test_dropped_start_saturates :
    ({ base with seqPhase := .convB, overrunCount := 6 } : State).requestStart.overrunCount = 7 ∧
    ({ base with seqPhase := .convB, overrunCount := 7 } : State).requestStart.overrunCount = 7 := by decide

/-- Section 2.12: {500, 300, 2, 1} is pushed at the end of phase B, then Idle, ov 0. -/
theorem test_push_at_phase_B :
    nextIs (step { base with seqPhase := .convB, resA := 500, overrunCount := 2, inbox := [.adcDone 300] })
      (fun t => t.buf == [(0, ⟨500, 300, 2, true⟩)] && t.head == 1 && t.overrunCount == 0 && t.seqPhase == .idle) = true := by
  decide

/-- Section 2.12: a discarded phase B with a pending start goes to SettleA and pushes nothing. -/
theorem test_discard_takes_pending_start :
    nextIs (step { base with
        seqPhase := .convB, discardInFlight := true, pendingStart := true, inbox := [.adcDone 7] })
      (fun t => t.seqPhase == .settleA && !t.discardInFlight && !t.pendingStart && t.head == 0) = true := by decide

/-- Section 2.13: in Timer mode with period 2, the second tick expires. -/
theorem test_second_tick_expires :
    nextIs (step { base with mode := .timer, targetPeriod := 2, currentCountdown := 1, inbox := [.tick] })
      (fun t => t.currentCountdown == 2 && t.cumulativeTicks == 1 && t.auxOut && t.seqPhase == .settleA) = true := by decide

/-- Section 2.10: a commit step with 0x21, -1 and the flag set emits PersistWrite(21, FF). -/
theorem test_commit_step :
    nextIs (step { base with stagedAddress := 0x21, commitRequested := true, inbox := [.commitStep] })
      (fun t => t.trace == [.persistWrite 0x21 0xFF] && t.activeAddress == 0x21 && !t.commitRequested) = true := by decide

/-- Section 2.14 and 2.15: byte events before any address match, and a boot record {00, 00}, are refused. -/
theorem test_refusals :
    refusedAs (step { base with inbox := [.byteWritten 0x00] }) .byteWrittenOutsideWrite = true ∧
    refusedAs (step { base with inbox := [.byteRequested] }) .byteRequestedOutsideRead = true ∧
    refusedAs (step { base with inbox := [.settleDone] }) .settleNotArmed = true ∧
    refusedAs (step { base with inbox := [.adcDone 1] }) .adcNotStarted = true ∧
    refusedAs (step { base with inbox := [.reset ⟨0x00, 0x00⟩] }) .bootRecordInvalid = true := by decide

/-- Program P2: address byte 0x91 is a read of 0x48; the interface delivers it to 0x48 and not to 0x21. -/
theorem test_bus_interface :
    busInterface 0x48 false (.address 0x91) = (true, some (.addrMatch .read)) ∧
    busInterface 0x21 false (.address 0x91) = (false, none) ∧ addressByte 0x21 .write = 0x42 := by decide

/-- The fetch interface: the step after `withFetchWord` runs the row's instruction (C8.W with byte 0, C0.R at position 1). -/
theorem test_withFetchWord_runs :
    nextIs (step (({ base with trim := 5 } : State).withFetchWord 16 0x008)) (fun t => t.trim == 0) = true ∧
    serves (step (({ base with ctrlRun := true } : State).withFetchWord 16 0x100)) 0x01 = true := by decide

/-! ### Witnesses: states and operands that meet the hypotheses of each statement, clause by clause, at boundary values -/

theorem witness_ResetEventLoadsEveryRegister :
    (∀ a ∈ [(0x03 : Byte), 0x77], 0x03 ≤ a.toNat ∧ a.toNat ≤ 0x77) ∧
    (∀ a ∈ [(0x02 : Byte), 0x78, 0xFF], ¬(0x03 ≤ a.toNat ∧ a.toNat ≤ 0x77)) ∧
    ({ base with inbox := [.reset ⟨0x77, 0xFF⟩] } : State).inbox = .reset ⟨0x77, 0xFF⟩ :: [] ∧
    ({ base with inbox := [.reset ⟨0x78, 0xFF⟩] } : State).inbox = .reset ⟨0x78, 0xFF⟩ :: [] := by decide

theorem witness_ResetStateMeetsInvariant :
    testParams.valid = true ∧ ({ testParams with slots := 2 } : Params).valid = true ∧
    ({ testParams with slots := 256, periodReset := 2 } : Params).valid = true ∧
    addressInRange 0x03 = true ∧ addressInRange 0x77 = true := by decide

/-- In Trigger mode, two samples held, inside a sample cycle of a command 3 read, a conversion in flight. -/
def midCycle : State := { twoSamples (reading 3 1 [.byteRequested]) with seqPhase := .settleA }

theorem midCycle_inv : midCycle.Inv where
  paramsValid := by decide
  memoryCanonical := by decide
  memoryWithin := by decide
  headSlot := by decide
  tailSlot := by decide
  heldValid := by decide
  periodMin := by decide
  countdownLive := by decide
  pendingDiscards := by decide
  discardBusy := by decide
  singleCount := by decide
  singleEmpty := by decide
  offEmpty := by decide
  offQuiet := by decide
  stagedLegal := by decide
  activeLegal := by decide
  cycleHeld := fun _ _ => by decide

theorem witness_EveryStepKeepsInvariant : ∃ t, midCycle.Inv ∧ step midCycle = .next t :=
  ⟨_, midCycle_inv, rfl⟩

theorem witness_SafeStateNeverFaults : ∃ s : State, s.Inv := ⟨midCycle, midCycle_inv⟩

theorem witness_ModeChangesOnlyByControlWriteOrReset :
    (∃ t, step (writing 0 1 [.byteWritten 0x05]) = .next t ∧ t.mode ≠ (writing 0 1 [.byteWritten 0x05]).mode) ∧
    (∃ t, step { base with mode := .timer, inbox := [.reset ⟨0x48, 0⟩] } = .next t ∧ t.mode ≠ .timer) :=
  ⟨⟨_, rfl, by decide⟩, ⟨_, rfl, by decide⟩⟩

theorem witness_AddressChangesOnlyByCommitOrReset :
    (∃ t, step { base with stagedAddress := 0x21, commitRequested := true, inbox := [.commitStep] } = .next t ∧
      t.activeAddress ≠ base.activeAddress) ∧
    (∃ t, step { base with inbox := [.reset ⟨0x03, 0⟩] } = .next t ∧ t.activeAddress ≠ base.activeAddress) :=
  ⟨⟨_, rfl, by decide⟩, ⟨_, rfl, by decide⟩⟩

theorem witness_PersistWriteOnlyAtCommitStep :
    ∃ t, step { base with commitRequested := true, inbox := [.commitStep] } = .next t ∧
      t.trace = [] ++ [.persistWrite 0x48 0xFF] := ⟨_, rfl, by decide⟩

theorem witness_AuxTogglesOnlyAtExpiry :
    (∃ t, step { base with mode := .timer, currentCountdown := 1, inbox := [.tick] } = .next t ∧ t.auxOut ≠ false) ∧
    (∃ t, step { base with auxOut := true, inbox := [.reset ⟨0x48, 0⟩] } = .next t ∧ t.auxOut ≠ true) :=
  ⟨⟨_, rfl, by decide⟩, ⟨_, rfl, by decide⟩⟩

theorem witness_SequencerIdlesOnlyOnResult :
    (∃ t, step { base with seqPhase := .convA, discardInFlight := true, inbox := [.adcDone 1] } = .next t ∧
      t.seqPhase = .idle) ∧
    (∃ t, step { base with seqPhase := .settleB, inbox := [.reset ⟨0x48, 0⟩] } = .next t ∧ t.seqPhase = .idle) :=
  ⟨⟨_, rfl, by decide⟩, ⟨_, rfl, by decide⟩⟩

theorem witness_SlotsChangeOnlyByPush :
    (∃ t, step { base with seqPhase := .convB, inbox := [.adcDone 1] } = .next t ∧ t.buf.read 0 ≠ base.buf.read 0) ∧
    (∃ t, step { twoSamples base with inbox := [.reset ⟨0x48, 0⟩] } = .next t ∧
      t.buf.read 0 ≠ (twoSamples base).buf.read 0) :=
  ⟨⟨_, rfl, by decide⟩, ⟨_, rfl, by decide⟩⟩

theorem witness_PeriodChangesOnlyByPeriodWriteOrReset :
    (∃ t, step (writing 1 2 [.byteWritten 0x12]) = .next t ∧ t.targetPeriod ≠ base.targetPeriod) ∧
    (∃ t, step { base with targetPeriod := 7, inbox := [.reset ⟨0x48, 0⟩] } = .next t ∧ t.targetPeriod ≠ 7) :=
  ⟨⟨_, rfl, by decide⟩, ⟨_, rfl, by decide⟩⟩

theorem witness_StepRunsDecodedInstruction :
    (writing 8 1 [.byteWritten 0x3F]).inbox = .byteWritten 0x3F :: [] ∧ (writing 8 1 []).busDir = .write ∧
    (writing 8 1 []).byteIndex ≠ 0 ∧ decode [(writing 8 1 []).activeCommand, 0x00, 0x3F] = .ok (.c8wTrim 0x3F, []) ∧
    Instr.wellFormed (.c8wTrim 0x3F) = true ∧
    (reading 8 255 [.byteRequested]).inbox = .byteRequested :: [] ∧ (reading 8 255 []).busDir = .read ∧
    decode [(reading 8 255 []).activeCommand, 0x01] = .ok (.c8rTrim, []) ∧ Instr.wellFormed .c8rTrim = true := by decide

theorem witness_AddressMatchStartsTransaction :
    ({ base with inbox := [.addrMatch .write] } : State).inbox = .addrMatch .write :: [] ∧
    ({ base with inbox := [.addrMatch .read] } : State).inbox = .addrMatch .read :: [] := by decide

theorem witness_ByteWrittenHandled :
    (writing 0 0 [.byteWritten 0x01]).inbox = .byteWritten 0x01 :: [] ∧ base.busDir ≠ .write ∧ (reading 0 1 []).busDir ≠ .write ∧
    (writing 0 0 []).busDir = .write ∧ (writing 0 0 []).byteIndex = 0 ∧
    (writing 0 1 []).byteIndex ≠ 0 ∧ (writing 0 255 []).byteIndex ≠ 0 := by decide

theorem witness_ByteRequestedHandled :
    (reading 3 0 [.byteRequested]).inbox = .byteRequested :: [] ∧ (reading 3 0 []).busDir = .read ∧
    ({ reading 3 255 [] with tail := 3 } : State).tail < testParams.slots ∧
    base.busDir ≠ .read ∧ (writing 3 1 [.byteRequested]).busDir ≠ .read := by decide

/-- Busy states for the start requests. -/
theorem witness_StartRequestByPhase :
    base.seqPhase = .idle ∧
    ({ base with seqPhase := .convA, discardInFlight := true } : State).seqPhase ≠ .idle ∧
    ({ base with seqPhase := .convA, discardInFlight := true } : State).discardInFlight = true ∧
    ({ base with seqPhase := .settleA, overrunCount := 7 } : State).seqPhase ≠ .idle ∧
    ({ base with seqPhase := .settleA, overrunCount := 7 } : State).discardInFlight = false :=
  ⟨rfl, by decide, rfl, by decide, rfl⟩

/-- A Tick next in Off mode, and in Timer mode with countdown n. -/
def ticking (m : Mode) (n : BitVec 16) : State := { base with mode := m, currentCountdown := n, inbox := [.tick] }

theorem witness_TickHandled :
    (ticking .off 0).inbox = .tick :: [] ∧ (ticking .off 0).mode ≠ .timer ∧
    (ticking .timer 1).inbox = .tick :: [] ∧ (ticking .timer 1).mode = .timer ∧ (ticking .timer 1).currentCountdown = 1 ∧
    (ticking .timer 2).currentCountdown ≠ 1 ∧ (ticking .timer 0).currentCountdown ≠ 1 ∧
    (ticking .timer 65535).currentCountdown ≠ 1 :=
  ⟨rfl, by decide, rfl, rfl, rfl, by decide, by decide, by decide⟩

theorem witness_EdgeHandled :
    ({ base with mode := .trigger, inbox := [.edge] } : State).inbox = .edge :: [] ∧
    ({ base with mode := .trigger } : State).mode = .trigger ∧ base.mode ≠ .trigger := by decide

theorem witness_SettleDoneHandled :
    ({ base with seqPhase := .settleA, inbox := [.settleDone] } : State).inbox = .settleDone :: [] ∧
    ({ base with seqPhase := .settleA } : State).seqPhase = .settleA ∧
    ({ base with seqPhase := .settleB } : State).seqPhase = .settleB ∧
    (∀ q ∈ [SeqPhase.idle, .convA, .convB], q ≠ .settleA ∧ q ≠ .settleB) :=
  ⟨rfl, rfl, rfl, by decide⟩

/-- A result next, in phase q. -/
def converting (q : SeqPhase) (discard pending : Bool) : State :=
  { base with seqPhase := q, discardInFlight := discard, pendingStart := pending, inbox := [.adcDone 1023] }

theorem witness_ConversionResultHandled :
    (converting .convA false false).inbox = .adcDone 1023 :: [] ∧ (converting .convA false false).seqPhase = .convA ∧
    (converting .convA false false).discardInFlight = false ∧ (converting .convA true true).discardInFlight = true ∧
    (converting .convB true false).seqPhase = .convB ∧ (converting .convB true false).discardInFlight = true ∧
    (converting .settleB false false).seqPhase ≠ .convA ∧ (converting .settleB false false).seqPhase ≠ .convB :=
  ⟨rfl, rfl, rfl, rfl, rfl, rfl, by decide, by decide⟩

/-- A full buffer (head 3, tail 0 of 4 slots) and one with one slot left (head 2, tail 0). -/
theorem witness_PairedResultPushed :
    ({ base with head := 3, seqPhase := .convB, inbox := [.adcDone 1] } : State).inbox = .adcDone 1 :: [] ∧
    ({ base with head := 3, seqPhase := .convB } : State).seqPhase = .convB ∧
    ({ base with head := 3, seqPhase := .convB } : State).discardInFlight = false ∧
    3 < testParams.slots ∧ (3 + 1) % testParams.slots = base.tail ∧ (2 + 1) % testParams.slots ≠ base.tail := by decide

theorem witness_PushStoresOrCounts :
    (twoSamples base).buf.wf = true ∧ (twoSamples base).head < testParams.slots ∧
    ((twoSamples base).head + 1) % testParams.slots ≠ (twoSamples base).tail ∧
    (({ twoSamples base with tail := 3 } : State).head + 1) % testParams.slots =
      ({ twoSamples base with tail := 3 } : State).tail := by decide

theorem witness_CommitStepHandled :
    ({ base with commitRequested := true, inbox := [.commitStep] } : State).inbox = .commitStep :: [] ∧
    ({ base with commitRequested := true } : State).commitRequested = true ∧ base.commitRequested = false := by decide

/-- Stop (00, 06), Single (01, 03), Trigger (05) and Timer (07) at position 1; positions 0, 2 and 255. -/
theorem witness_ControlWriteEntersMode :
    (writing 0 1 []).byteIndex = 1 ∧ (∀ i ∈ [(0 : Byte), 2, 255], (writing 0 i []).byteIndex ≠ 1) ∧
    (∀ b ∈ [(0x00 : Byte), 0x06], b.getLsbD 0 = false) ∧
    (∀ b ∈ [(0x01 : Byte), 0x03, 0xFB], b.getLsbD 0 = true ∧ b.getLsbD 2 = false) ∧
    (∀ b ∈ [(0x05 : Byte), 0xFD], b.getLsbD 0 = true ∧ b.getLsbD 2 = true ∧ b.getLsbD 1 = false) ∧
    (∀ b ∈ [(0x07 : Byte), 0xFF], b.getLsbD 0 = true ∧ b.getLsbD 2 = true ∧ b.getLsbD 1 = true) := by decide

theorem witness_PeriodWriteByPosition :
    (writing 1 1 []).byteIndex = 1 ∧ (writing 1 2 []).byteIndex = 2 ∧
    (∀ i ∈ [(0 : Byte), 3, 255], (writing 1 i []).byteIndex ≠ 1 ∧ (writing 1 i []).byteIndex ≠ 2) := by decide

theorem witness_CountReadAtPositionOne :
    2 ≤ ({ base with params := { testParams with slots := 2 } } : State).params.slots ∧ (reading 2 1 []).byteIndex = 1 ∧
    (∀ i ∈ [(0 : Byte), 2, 255], (reading 2 i []).byteIndex ≠ 1) := by decide

/-- A state at position i of a command 3 or 4 read, buffer as given by head and tail. -/
def atPosition (i : Byte) (head tail : Nat) (empty : Bool) : State :=
  { reading 3 i [] with head := head, tail := tail, rdEmpty := empty }

theorem witness_UnpackedReadByPosition :
    (∀ i ∈ [(0 : Byte), 29, 255], (atPosition i 0 0 false).byteIndex.toNat = 0 ∨ 28 < (atPosition i 0 0 false).byteIndex.toNat) ∧
    (∀ i ∈ [(1 : Byte), 25], i.toNat ≤ 28 ∧ i.toNat % 4 = 1 ∧ (atPosition i 3 3 false).head = (atPosition i 3 3 false).tail ∧
      (atPosition i 0 3 false).head ≠ (atPosition i 0 3 false).tail ∧ (atPosition i 0 3 false).tail < testParams.slots) ∧
    (∀ i ∈ [(2 : Byte), 28], i.toNat ≠ 0 ∧ i.toNat ≤ 28 ∧ i.toNat % 4 ≠ 1 ∧ (atPosition i 0 3 true).rdEmpty = true) ∧
    (∀ i ∈ [(2 : Byte), 26], i.toNat ≤ 28 ∧ i.toNat % 4 = 2 ∧ (atPosition i 0 3 false).rdEmpty = false) ∧
    (∀ i ∈ [(3 : Byte), 27], i.toNat ≤ 28 ∧ i.toNat % 4 = 3 ∧ (atPosition i 0 3 false).rdEmpty = false) ∧
    (∀ i ∈ [(4 : Byte), 28], i.toNat ≠ 0 ∧ i.toNat ≤ 28 ∧ i.toNat % 4 = 0 ∧ (atPosition i 0 3 false).rdEmpty = false) := by
  decide

theorem witness_PackedReadByPosition :
    (∀ i ∈ [(0 : Byte), 31, 255], (atPosition i 0 0 false).byteIndex.toNat = 0 ∨ 30 < (atPosition i 0 0 false).byteIndex.toNat) ∧
    (∀ i ∈ [(1 : Byte), 28], i.toNat ≤ 30 ∧ i.toNat % 3 = 1 ∧ (atPosition i 3 3 false).head = (atPosition i 3 3 false).tail ∧
      (atPosition i 0 3 false).head ≠ (atPosition i 0 3 false).tail ∧ (atPosition i 0 3 false).tail < testParams.slots) ∧
    (∀ i ∈ [(2 : Byte), 30], i.toNat ≠ 0 ∧ i.toNat ≤ 30 ∧ i.toNat % 3 ≠ 1 ∧ (atPosition i 0 3 true).rdEmpty = true) ∧
    (∀ i ∈ [(2 : Byte), 29], i.toNat ≤ 30 ∧ i.toNat % 3 = 2 ∧ (atPosition i 0 3 false).rdEmpty = false) ∧
    (∀ i ∈ [(3 : Byte), 30], i.toNat ≠ 0 ∧ i.toNat ≤ 30 ∧ i.toNat % 3 = 0 ∧ (atPosition i 0 3 false).rdEmpty = false) := by
  decide

theorem witness_MissingSlotFaults :
    (atPosition 2 0 4 false).params.slots ≤ (atPosition 2 0 4 false).tail ∧ (atPosition 2 0 4 false).rdEmpty = false ∧
    (atPosition 1 0 4 true).params.slots ≤ (atPosition 1 0 4 true).tail ∧
    (atPosition 1 0 4 true).head ≠ (atPosition 1 0 4 true).tail ∧
    (∀ i ∈ [(1 : Byte), 25], 1 ≤ i.toNat ∧ i.toNat ≤ 28 ∧ i.toNat % 4 = 1) ∧
    (∀ i ∈ [(2 : Byte), 28], 1 ≤ i.toNat ∧ i.toNat ≤ 28 ∧ i.toNat % 4 ≠ 1) ∧
    (∀ i ∈ [(1 : Byte), 28], 1 ≤ i.toNat ∧ i.toNat ≤ 30 ∧ i.toNat % 3 = 1) ∧
    (∀ i ∈ [(2 : Byte), 30], 1 ≤ i.toNat ∧ i.toNat ≤ 30 ∧ i.toNat % 3 ≠ 1) := by decide

theorem witness_AddressStageRangeChecked :
    (writing 5 1 []).byteIndex = 1 ∧ (∀ b ∈ [(0x03 : Byte), 0x77], 0x03 ≤ b.toNat ∧ b.toNat ≤ 0x77) ∧
    (∀ b ∈ [(0x02 : Byte), 0x78, 0x83, 0xFF], b.toNat < 0x03 ∨ 0x77 < b.toNat) ∧ (writing 5 2 []).byteIndex ≠ 1 := by decide

theorem witness_TickCounterSnapshotRead :
    (reading 6 1 []).byteIndex = 1 ∧ (∀ i ∈ [(2 : Byte), 4], 2 ≤ i.toNat ∧ i.toNat ≤ 4) ∧
    (∀ i ∈ [(0 : Byte), 5, 255], i.toNat = 0 ∨ 4 < i.toNat) := by decide

theorem witness_TrimWriteAndRead :
    (writing 8 1 []).byteIndex = 1 ∧ (writing 8 2 []).byteIndex ≠ 1 ∧
    (reading 8 1 []).byteIndex = 1 ∧ (reading 8 255 []).byteIndex ≠ 1 := by decide

theorem witness_CommitWriteArmsAndRequests :
    (writing 9 1 []).byteIndex = 1 ∧ (writing 9 2 []).byteIndex = 2 ∧
    ({ writing 9 2 [] with commitArm := true } : State).commitArm = true ∧ (writing 9 2 []).commitArm = false ∧
    (0x55 : Byte) ≠ 0xAA ∧ (writing 9 3 []).byteIndex ≠ 1 ∧ (writing 9 3 []).byteIndex ≠ 2 := by decide

theorem witness_UnrecognizedWritesAndReads : ∀ c ∈ [(10 : Byte), 255], 10 ≤ c.toNat := by decide

theorem witness_ExpiriesComeEveryPeriod :
    ({ base with mode := .timer, currentCountdown := 100 } : State).mode = .timer ∧
    ({ base with mode := .timer, currentCountdown := 100 } : State).currentCountdown =
      ({ base with mode := .timer, currentCountdown := 100 } : State).targetPeriod ∧ base.targetPeriod ≠ 0 := by decide

theorem witness_CountdownRunsToExpiry :
    ({ base with mode := .timer, currentCountdown := 3 } : State).mode = .timer ∧
    (∀ k ∈ [0, 2], k < ({ base with mode := .timer, currentCountdown := 3 } : State).currentCountdown.toNat) := by decide

theorem witness_ForeignTransferDeliversNothing : (0x21 : BitVec 7) ≠ base.ownAddr ∧ (0x00 : BitVec 7) ≠ base.ownAddr := by
  decide

theorem witness_UnpackedTransactionServesSample :
    (atPosition 0 0 3 false).head ≠ (atPosition 0 0 3 false).tail ∧
    (atPosition 0 0 3 false).tail < (atPosition 0 0 3 false).params.slots := by decide

theorem witness_SingleModeRepeatsSample :
    ({ atPosition 0 1 0 false with mode := .single } : State).mode = .single ∧
    (atPosition 0 1 0 false).head ≠ (atPosition 0 1 0 false).tail ∧
    (atPosition 0 1 0 false).tail < (atPosition 0 1 0 false).params.slots ∧ (∀ n ∈ [0, 10], n ≤ 10) := by decide

theorem witness_EmptyBufferReadsZero :
    ((0x03 : Byte) = 0x03 ∨ (0x03 : Byte) = 0x04) ∧ ((0x04 : Byte) = 0x03 ∨ (0x04 : Byte) = 0x04) ∧
    base.head = base.tail := by decide

/-- Two samples held in four slots: the pair fills the last free slot. -/
theorem witness_ConversionPushesPair :
    midCycle.Inv ∧ midCycle.seqPhase = .settleA ∧ midCycle.discardInFlight = false ∧
      midCycle.count + 1 < midCycle.params.slots :=
  ⟨midCycle_inv, by decide, by decide, by decide⟩

theorem witness_StopDiscardsConversionInFlight :
    (∀ b ∈ [(0x00 : Byte), 0x06, 0xFE], b.getLsbD 0 = false) ∧ midCycle.seqPhase ≠ .idle ∧
    (∀ q ∈ [SeqPhase.settleA, .convA, .settleB, .convB], (converting q false false).seqPhase ≠ .idle) := by decide

end Sys2Proof.Tests
end

section
/-! The bytes of the two sample layouts as numbers (R45, R46). -/

namespace Sys2Proof.Machine

/-- Concatenation as a number: the high part is scaled past the low part. -/
theorem toNat_append_eq_mul_add {m n : Nat} (x : BitVec m) (y : BitVec n) :
    (x ++ y).toNat = x.toNat * 2 ^ n + y.toNat := by
  rw [BitVec.toNat_append, ← Nat.shiftLeft_add_eq_or_of_lt y.isLt, Nat.shiftLeft_eq]

/-- A slice as a number: drop the `i` low bits, keep the next `k`. -/
theorem toNat_extractLsb'_eq_div_mod {n : Nat} (i k : Nat) (x : BitVec n) :
    (x.extractLsb' i k).toNat = x.toNat / 2 ^ i % 2 ^ k := by
  rw [BitVec.extractLsb'_toNat, Nat.shiftRight_eq_div_pow]

/-- The low slice is the remainder. -/
theorem toNat_extractLsb'_low {n : Nat} (k : Nat) (x : BitVec n) :
    (x.extractLsb' 0 k).toNat = x.toNat % 2 ^ k := by
  rw [toNat_extractLsb'_eq_div_mod, Nat.pow_zero, Nat.div_one]

/-- The slice above the low `i` bits is all of the quotient. -/
theorem toNat_extractLsb'_top (i k : Nat) (x : BitVec (i + k)) :
    (x.extractLsb' i k).toNat = x.toNat / 2 ^ i := by
  rw [toNat_extractLsb'_eq_div_mod, Nat.mod_eq_of_lt]
  exact Nat.div_lt_of_lt_mul (Nat.pow_add 2 i k ▸ x.isLt)

/-! ### Unpacked layout -/

theorem toNat_unpackedByte_one (x : Sample) : (unpackedByte x 1).toNat = x.a.toNat % 256 := by
  change (x.a.extractLsb' 0 8).toNat = _
  exact toNat_extractLsb'_low 8 x.a

theorem toNat_unpackedByte_two (x : Sample) : (unpackedByte x 2).toNat = x.a.toNat / 256 := by
  change ((x.a.extractLsb' 8 2).setWidth 8).toNat = _
  rw [BitVec.toNat_setWidth_of_le (by decide)]
  exact toNat_extractLsb'_top 8 2 x.a

theorem toNat_unpackedByte_three (x : Sample) : (unpackedByte x 3).toNat = x.b.toNat % 256 := by
  change (x.b.extractLsb' 0 8).toNat = _
  exact toNat_extractLsb'_low 8 x.b

/-- Byte 4 is the 6-bit word `{valid, ov, B[9:8]}` (the spec's decision D7). -/
theorem toNat_unpackedByte_four (x : Sample) :
    (unpackedByte x 4).toNat = x.b.toNat / 256 + 4 * x.ov.toNat + 32 * x.valid.toNat := by
  have hb : (x.b.extractLsb' 8 2).toNat = x.b.toNat / 256 := toNat_extractLsb'_top 8 2 x.b
  change ((BitVec.ofBool x.valid ++ x.ov ++ x.b.extractLsb' 8 2).setWidth 8).toNat = _
  rw [BitVec.toNat_setWidth_of_le (by decide), toNat_append_eq_mul_add, toNat_append_eq_mul_add, hb,
    BitVec.toNat_ofBool]
  omega

/-- Settles O47, byte by byte. -/
theorem unpackedBytesOfSample : Obligations.UnpackedBytesOfSample := fun x =>
  ⟨toNat_unpackedByte_one x, toNat_unpackedByte_two x, toNat_unpackedByte_three x, toNat_unpackedByte_four x⟩

/-! ### Packed layout -/

/-- The packed word as a number (the spec's decision D8). -/
theorem toNat_packedWord (x : Sample) :
    (packedWord x).toNat =
      x.a.toNat + x.b.toNat * 2 ^ 10 + x.ov.toNat * 2 ^ 20 + x.valid.toNat * 2 ^ 23 := by
  unfold packedWord
  rw [toNat_append_eq_mul_add, toNat_append_eq_mul_add, toNat_append_eq_mul_add, BitVec.toNat_ofBool]
  omega

/-- Inside a cycle the packed byte is the base-256 digit of the packed word, least significant first. -/
theorem toNat_packedByte (x : Sample) {p : Nat} (h1 : 1 ≤ p) (h3 : p ≤ 3) :
    (packedByte x p).toNat = (packedWord x).toNat / 2 ^ (8 * p - 8) % 2 ^ 8 := by
  rw [packedByte, if_pos ⟨h1, h3⟩, toNat_extractLsb'_eq_div_mod]

/-- The three packed bytes put together again are the packed word. -/
theorem packedBytes_eq_packedWord (x : Sample) :
    (packedByte x 1).toNat + 256 * (packedByte x 2).toNat + 65536 * (packedByte x 3).toNat =
      (packedWord x).toNat := by
  have hlt : (packedWord x).toNat < 2 ^ 24 := (packedWord x).isLt
  rw [toNat_packedByte x (p := 1) (by decide) (by decide), toNat_packedByte x (p := 2) (by decide) (by decide),
    toNat_packedByte x (p := 3) (by decide) (by decide)]
  omega

/-- Settles O48: the bytes are the digits of the packed word, and the word is the weighted sum of the fields. -/
theorem packedBytesOfSample : Obligations.PackedBytesOfSample := fun x =>
  (packedBytes_eq_packedWord x).trans (toNat_packedWord x)

end Sys2Proof.Machine
end

section
/-! The Reset event and the boot load (R58, R138), and the events that a block at rest ignores or refuses. -/

namespace Sys2Proof.Machine

/-! ### Events that find no work -/

/-- A tick has no effect outside Timer mode (R87). -/
theorem State.tick_of_ne_timer {s : State} (hm : s.mode ≠ .timer) : s.tick = s := by
  obtain ⟨-, ht⟩ | ⟨htimer, -⟩ | ⟨htimer, -⟩ := s.tick_cases
  · exact ht
  · exact absurd htimer hm
  · exact absurd htimer hm

/-- An edge has no effect outside Trigger mode (R88). -/
theorem State.edge_of_ne_trigger {s : State} (hm : s.mode ≠ .trigger) : s.edge = s :=
  (s.edge_cases.resolve_right fun h => hm h.left).right

/-- Outside Timer mode a tick is taken from the inbox and changes nothing else (R87). -/
theorem step_tick_of_ne_timer {s : State} (hm : s.mode ≠ .timer) (later : List Event) :
    step { s with inbox := .tick :: later } = .next { s with inbox := later } := by
  rw [step_of_event rfl]
  exact congrArg Host.Outcome.next (State.tick_of_ne_timer hm)

/-- Outside Trigger mode an edge is taken from the inbox and changes nothing else (R88). -/
theorem step_edge_of_ne_trigger {s : State} (hm : s.mode ≠ .trigger) (later : List Event) :
    step { s with inbox := .edge :: later } = .next { s with inbox := later } := by
  rw [step_of_event rfl]
  exact congrArg Host.Outcome.next (State.edge_of_ne_trigger hm)

/-- An idle sequencer has armed no settling delay, so its end is refused (R128). -/
theorem step_settleDone_of_idle {s : State} (hp : s.seqPhase = .idle) (later : List Event) :
    step { s with inbox := .settleDone :: later } = .refused .settleNotArmed := by
  rw [step_of_event rfl]
  change State.settleExpired { s with inbox := later } = _
  simp only [State.settleExpired, hp]

/-- An idle sequencer has started no conversion, so a result is refused (R128). -/
theorem step_adcDone_of_idle {s : State} (hp : s.seqPhase = .idle) (v : BitVec 10) (later : List Event) :
    step { s with inbox := .adcDone v :: later } = .refused .adcNotStarted := by
  rw [step_of_event rfl]
  change State.conversionDone { s with inbox := later } v = _
  simp only [State.conversionDone, hp]

/-! ### The Reset event -/

/-- The range check of an address byte as an inequality on its number (R50). -/
theorem addressInRange_iff (b : Byte) : addressInRange b = true ↔ 0x03 ≤ b.toNat ∧ b.toNat ≤ 0x77 := by
  rw [addressInRange, Bool.and_eq_true, decide_eq_true_iff, decide_eq_true_iff]

/-- A Reset event with a valid record loads the reset state of that record; the events not yet delivered and the outputs
already driven stay (R58, R138). -/
theorem step_reset_of_inRange {s : State} {r : BootRecord} {rest : List Event} (h : s.inbox = .reset r :: rest)
    (hr : addressInRange r.address = true) :
    step s = .next { State.resetWith s.params r with inbox := rest, trace := s.trace } := by
  rw [step_of_event h]
  exact if_pos hr

/-- A Reset event with an invalid record is refused (R58, R128). -/
theorem step_reset_of_not_inRange {s : State} {r : BootRecord} {rest : List Event} (h : s.inbox = .reset r :: rest)
    (hr : ¬addressInRange r.address = true) : step s = .refused .bootRecordInvalid := by
  rw [step_of_event h]
  exact if_neg hr

/-- Settles O1: a valid record loads `State.resetWith`, whose fields are the reset column; its mode is Off and its
sequencer idle, which decides what the later events do. -/
theorem resetEventLoadsEveryRegister : Obligations.ResetEventLoadsEveryRegister := by
  intro s r rest h
  rw [← addressInRange_iff]
  refine ⟨fun hr => ?loaded, step_reset_of_not_inRange h⟩
  case loaded =>
    refine ⟨_, step_reset_of_inRange h hr, rfl, rfl, rfl, rfl, rfl, rfl, rfl, rfl, rfl, rfl, rfl, rfl, rfl, rfl, rfl,
      rfl, rfl, rfl, rfl, rfl, rfl, rfl, rfl, rfl, rfl, ?tick, ?edge, ?settleDone, ?adcDone⟩
    case tick => exact step_tick_of_ne_timer (by simp [State.resetWith])
    case edge => exact step_edge_of_ne_trigger (by simp [State.resetWith])
    case settleDone => exact step_settleDone_of_idle rfl
    case adcDone => exact step_adcDone_of_idle rfl

end Sys2Proof.Machine
end

section
/-! The push on the ring buffer (R65): one equation for a full buffer, one for a buffer with room. -/

namespace Sys2Proof.Machine

/-- The bump adds one and saturates at 7 (R9). -/
theorem overrunBump_eq_ite (ov : BitVec 3) : overrunBump ov = if ov = 7 then 7 else ov + 1 := by
  revert ov
  decide

/-- A full buffer rejects the sample and only counts the loss (R65). -/
theorem State.push_of_full {s : State} (hfull : s.slotAfter s.head = s.tail) (a b : BitVec 10) :
    s.push a b = .next { s with overrunCount := overrunBump s.overrunCount } :=
  if_pos hfull

/-- A buffer with room takes the sample at `head`, with the overrun count embedded (R65). -/
theorem State.push_of_room {s : State} (hroom : s.slotAfter s.head ≠ s.tail) (hhead : s.head < s.params.slots)
    (a b : BitVec 10) :
    s.push a b = .next { s with
      buf := s.buf.write s.head { a := a, b := b, ov := s.overrunCount, valid := true }
      head := s.slotAfter s.head
      overrunCount := 0 } :=
  (if_neg hroom).trans (if_pos hhead)

/-- Settles O27: the two equations of push; the memory with room is the one written at `head`, which reads back the sample
there and what it held at every other slot. -/
theorem pushStoresOrCounts : Obligations.PushStoresOrCounts := by
  intro s a b hwf hhead
  refine ⟨fun hfull => ?full, fun hroom => ?room⟩
  case full =>
    rw [← overrunBump_eq_ite]
    exact State.push_of_full hfull a b
  case room =>
    exact ⟨_, State.push_of_room hroom hhead a b, Memory.read_write_same s.buf s.head _ hwf,
      fun i hi => Memory.read_write_other s.buf s.head i _ hi⟩

end Sys2Proof.Machine
end

section
/-! The start request and the settling delay of the conversion sequencer (R72, R73): one equation per branch. -/

namespace Sys2Proof.Machine

/-! ### The start request -/

/-- An idle sequencer begins phase A. -/
theorem State.requestStart_of_idle {s : State} (hidle : s.seqPhase = .idle) :
    s.requestStart = { s with seqPhase := .settleA, trace := s.trace ++ [.settleArm] } :=
  if_pos hidle

/-- A busy sequencer whose conversion is being discarded latches the request. -/
theorem State.requestStart_of_discarding {s : State} (hbusy : s.seqPhase ≠ .idle) (hd : s.discardInFlight = true) :
    s.requestStart = { s with pendingStart := true } :=
  (if_neg hbusy).trans (if_pos hd)

/-- A busy sequencer whose conversion is kept drops the request and counts it. -/
theorem State.requestStart_of_converting {s : State} (hbusy : s.seqPhase ≠ .idle) (hd : s.discardInFlight = false) :
    s.requestStart = { s with overrunCount := overrunBump s.overrunCount } :=
  (if_neg hbusy).trans (if_neg (Bool.eq_false_iff.mp hd))

/-- Settles O21: the three equations of the request, the dropped one with the bump written as saturation at 7. -/
theorem startRequestByPhase : Obligations.StartRequestByPhase := by
  intro s
  refine ⟨State.requestStart_of_idle, State.requestStart_of_discarding, fun hbusy hd => ?dropped⟩
  case dropped =>
    rw [← overrunBump_eq_ite]
    exact State.requestStart_of_converting hbusy hd

/-! ### The end of a settling delay -/

/-- After the delay of phase A the conversion of channel A starts. -/
theorem State.settleExpired_of_settleA {s : State} (hp : s.seqPhase = .settleA) :
    s.settleExpired = .next { s with seqPhase := .convA, trace := s.trace ++ [.adcStart .a] } := by
  rw [State.settleExpired, hp]
  rfl

/-- After the delay of phase B the conversion of channel B starts. -/
theorem State.settleExpired_of_settleB {s : State} (hp : s.seqPhase = .settleB) :
    s.settleExpired = .next { s with seqPhase := .convB, trace := s.trace ++ [.adcStart .b] } := by
  rw [State.settleExpired, hp]
  rfl

/-- In a phase that armed no delay its end is refused (R128). -/
theorem State.settleExpired_of_not_armed {s : State} (ha : s.seqPhase ≠ .settleA) (hb : s.seqPhase ≠ .settleB) :
    s.settleExpired = .refused .settleNotArmed := by
  unfold State.settleExpired
  split
  case h_1 hp => exact absurd hp ha
  case h_2 hp => exact absurd hp hb
  all_goals rfl

/-- Settles O24: the step hands the event to `State.settleExpired`, which has one equation per phase that armed a delay
and one for the others. -/
theorem settleDoneHandled : Obligations.SettleDoneHandled := by
  intro s rest h
  have hstep : step s = State.settleExpired { s with inbox := rest } := step_of_event h
  rw [hstep]
  exact ⟨fun ha => State.settleExpired_of_settleA ha, fun hb => State.settleExpired_of_settleB hb,
    fun ha hb => State.settleExpired_of_not_armed ha hb⟩

end Sys2Proof.Machine
end

section
/-! The periodic tick and the trigger edge (R87, R88): one equation per branch of their handlers. -/

namespace Sys2Proof.Machine

/-! ### The tick -/

/-- In Timer mode a countdown other than 1 only goes down; at 0 the 16-bit register wraps (R9). -/
theorem State.tick_of_countdown_ne_one {s : State} (hm : s.mode = .timer) (hc : s.currentCountdown ≠ 1) :
    s.tick = { s with currentCountdown := s.currentCountdown - 1 } := by
  obtain ⟨hother, -⟩ | ⟨-, -, ht⟩ | ⟨-, hone, -⟩ := s.tick_cases
  · exact absurd hm hother
  · exact ht
  · exact absurd hone hc

/-- In Timer mode the tick that takes the countdown from 1 to 0 is the expiry. -/
theorem State.tick_of_countdown_eq_one {s : State} (hm : s.mode = .timer) (hc : s.currentCountdown = 1) :
    s.tick = s.expire := by
  obtain ⟨hother, -⟩ | ⟨-, hne, -⟩ | ⟨-, -, ht⟩ := s.tick_cases
  · exact absurd hm hother
  · exact absurd hc hne
  · exact ht

/-- Adding 1 to a 32-bit counter is adding 1 to its number modulo 2^32. -/
theorem add_one_eq_ofNat_mod (c : BitVec 32) : c + 1 = BitVec.ofNat 32 ((c.toNat + 1) % 2 ^ 32) := by
  apply BitVec.eq_of_toNat_eq
  rw [BitVec.toNat_ofNat, Nat.mod_mod, BitVec.toNat_add]
  rfl

/-- Settles O22: the step hands the event to `State.tick`, which has one equation outside Timer mode, one for a countdown
that goes down and one for the expiry; the expiry's counter is written as a number. -/
theorem tickHandled : Obligations.TickHandled := by
  intro s rest h
  have hstep : step s = .next (State.tick { s with inbox := rest }) := step_of_event h
  rw [hstep, ← add_one_eq_ofNat_mod]
  exact ⟨fun hm => congrArg _ (State.tick_of_ne_timer hm),
    fun hm hc => congrArg _ (State.tick_of_countdown_ne_one hm hc),
    fun hm hc => congrArg _ (State.tick_of_countdown_eq_one hm hc)⟩

/-! ### The edge -/

/-- In Trigger mode an edge requests a start. -/
theorem State.edge_of_trigger {s : State} (hm : s.mode = .trigger) : s.edge = s.requestStart :=
  (s.edge_cases.resolve_left fun h => h.left hm).right

/-- Settles O23: the step hands the event to `State.edge`, which has one equation in Trigger mode and one outside it. -/
theorem edgeHandled : Obligations.EdgeHandled := by
  intro s rest h
  have hstep : step s = .next (State.edge { s with inbox := rest }) := step_of_event h
  rw [hstep]
  exact ⟨fun hm => congrArg _ (State.edge_of_trigger hm), fun hm => congrArg _ (State.edge_of_ne_trigger hm)⟩

end Sys2Proof.Machine
end

section
/-! The dispatcher's data-byte events (R94, R95): the instruction that a command selects in each direction, the equations
of the two handlers, and what the write and read rules keep. -/

namespace Sys2Proof.Machine

/-! ### The index and the instruction of a data byte -/

/-- The index advances by one and saturates at 255 (R96). -/
theorem indexBump_eq_ite (i : Byte) : indexBump i = if i = 255 then 255 else i + 1 := by
  unfold indexBump
  split
  case isTrue h => rw [h]; rfl
  case isFalse h =>
    have hlt : i.toNat + 1 ≤ 255 := by bv_omega
    rw [Nat.min_eq_left hlt, BitVec.ofNat_add, BitVec.ofNat_toNat, BitVec.setWidth_eq]
    rfl

/-- In the write direction every command selects a row that builds a well-formed instruction (R57, R97). -/
theorem exists_writeRow_instr (c b : Byte) :
    ∃ i, i.wellFormed = true ∧ (opcodeRows[commandRow c]?).bind (fun r => r.buildWrite c b) = some i := by
  obtain (rfl | rfl | rfl | rfl | rfl | rfl | rfl | rfl | rfl | rfl) |
    ⟨hc, hrow⟩ | ⟨hc, hrow⟩ | ⟨hc, hrow⟩ | ⟨hc, hrow⟩ | ⟨hc, hrow⟩ | ⟨hc, hrow⟩ := command_cases c
  · exact ⟨.c0wControl b, rfl, rfl⟩
  · exact ⟨.c1wPeriod b, rfl, rfl⟩
  · exact ⟨.c2wCount b, rfl, rfl⟩
  · exact ⟨.c3wUnpacked b, rfl, rfl⟩
  · exact ⟨.c4wPacked b, rfl, rfl⟩
  · exact ⟨.c5wAddrStage b, rfl, rfl⟩
  · exact ⟨.c6wTicks b, rfl, rfl⟩
  · exact ⟨.c7wIdent b, rfl, rfl⟩
  · exact ⟨.c8wTrim b, rfl, rfl⟩
  · exact ⟨.c9wCommit b, rfl, rfl⟩
  · exact ⟨.cxw10to11 c b, hc, by rw [hrow]; rfl⟩
  · exact ⟨.cxw12to15 c b, hc, by rw [hrow]; rfl⟩
  · exact ⟨.cxw16to31 c b, hc, by rw [hrow]; rfl⟩
  · exact ⟨.cxw32to63 c b, hc, by rw [hrow]; rfl⟩
  · exact ⟨.cxw64to127 c b, hc, by rw [hrow]; rfl⟩
  · exact ⟨.cxw128to255 c b, hc, by rw [hrow]; rfl⟩

/-- In the read direction every command selects a row that builds a well-formed instruction (R57, R98). -/
theorem exists_readRow_instr (c : Byte) :
    ∃ i, i.wellFormed = true ∧ (opcodeRows[16 + commandRow c]?).bind (fun r => r.buildRead c) = some i := by
  obtain (rfl | rfl | rfl | rfl | rfl | rfl | rfl | rfl | rfl | rfl) |
    ⟨hc, hrow⟩ | ⟨hc, hrow⟩ | ⟨hc, hrow⟩ | ⟨hc, hrow⟩ | ⟨hc, hrow⟩ | ⟨hc, hrow⟩ := command_cases c
  · exact ⟨.c0rControl, rfl, rfl⟩
  · exact ⟨.c1rPeriod, rfl, rfl⟩
  · exact ⟨.c2rCount, rfl, rfl⟩
  · exact ⟨.c3rUnpacked, rfl, rfl⟩
  · exact ⟨.c4rPacked, rfl, rfl⟩
  · exact ⟨.c5rAddrStage, rfl, rfl⟩
  · exact ⟨.c6rTicks, rfl, rfl⟩
  · exact ⟨.c7rIdent, rfl, rfl⟩
  · exact ⟨.c8rTrim, rfl, rfl⟩
  · exact ⟨.c9rCommit, rfl, rfl⟩
  · exact ⟨.cxr10to11 c, hc, by rw [hrow]; rfl⟩
  · exact ⟨.cxr12to15 c, hc, by rw [hrow]; rfl⟩
  · exact ⟨.cxr16to31 c, hc, by rw [hrow]; rfl⟩
  · exact ⟨.cxr32to63 c, hc, by rw [hrow]; rfl⟩
  · exact ⟨.cxr64to127 c, hc, by rw [hrow]; rfl⟩
  · exact ⟨.cxr128to255 c, hc, by rw [hrow]; rfl⟩

/-- Bytes that decode to an instruction run it. -/
theorem runBytes_of_decode {bytes rest : List Byte} {i : Instr} (h : decode bytes = .ok (i, rest)) (s : State) :
    runBytes bytes s = exec i s := by
  unfold runBytes
  rw [h]

/-- A data byte written runs the instruction of its key {0, activeCommand} (R94, R97). -/
theorem exists_instr_runBytes_write (s : State) (b : Byte) :
    ∃ i, i.wellFormed = true ∧ instrOfKey (opcodeKey 0#1 s.activeCommand) b = some i ∧
      runBytes (s.writeBytes b) s = exec i s := by
  obtain ⟨i, hwf, hrow⟩ := exists_writeRow_instr s.activeCommand b
  exact ⟨i, hwf, instrOfKey_write hrow, runBytes_of_decode (decode_write [] hrow) s⟩

/-- A byte request runs the instruction of its key {1, activeCommand}, which holds no data byte (R95, R98). -/
theorem exists_instr_runBytes_read (s : State) :
    ∃ i, i.wellFormed = true ∧ (∀ b, instrOfKey (opcodeKey 1#1 s.activeCommand) b = some i) ∧
      runBytes s.readBytes s = exec i s := by
  obtain ⟨i, hwf, hrow⟩ := exists_readRow_instr s.activeCommand
  exact ⟨i, hwf, fun b => instrOfKey_read b hrow, runBytes_of_decode (decode_read [] hrow) s⟩

/-! ### A written byte -/

/-- A start request is no bus event: the index stays. -/
@[simp] theorem State.requestStart_byteIndex (s : State) : s.requestStart.byteIndex = s.byteIndex := by
  obtain ⟨-, h⟩ | ⟨-, -, h⟩ | ⟨-, -, h⟩ := s.requestStart_cases
  all_goals rw [h]

@[simp] theorem State.singleEntry_byteIndex (s : State) : s.singleEntry.byteIndex = s.byteIndex :=
  State.requestStart_byteIndex _

/-- A control write leaves the index to the dispatcher, whatever mode it enters. -/
@[simp] theorem State.controlWrite_byteIndex (s : State) (b : Byte) : (s.controlWrite b).byteIndex = s.byteIndex := by
  obtain ⟨-, h⟩ | ⟨-, -, h⟩ | ⟨-, -, h⟩ | ⟨-, -, h⟩ := s.controlWrite_cases b
  all_goals simp [h]

/-- No write rule changes the index; the dispatcher advances it afterwards (R94). -/
theorem WriteEffect.byteIndex_eq {s t : State} {b : Byte} (h : WriteEffect s b t) : t.byteIndex = s.byteIndex := by
  cases h
  case control => exact s.controlWrite_byteIndex b
  all_goals rfl

/-- Outside a write transaction a written byte is refused (R94). -/
theorem State.byteWritten_of_ne_write {s : State} {b : Byte} (hd : s.busDir ≠ .write) :
    s.byteWritten b = .refused .byteWrittenOutsideWrite :=
  if_neg hd

/-- The byte at index 0 becomes the command, whatever its value (R94). -/
theorem State.byteWritten_of_index_zero {s : State} {b : Byte} (hd : s.busDir = .write) (hi : s.byteIndex = 0) :
    s.byteWritten b = .next { s with activeCommand := b, byteIndex := 1 } := by
  have hbump : indexBump s.byteIndex = 1 := by rw [hi]; rfl
  rw [State.byteWritten, if_pos hd, if_pos hi, State.advanceIndex]
  simp only [hbump]

/-- A later byte runs its bytes' instruction, then the index advances (R94). -/
theorem State.byteWritten_of_index_ne_zero {s : State} {b : Byte} (hd : s.busDir = .write) (hi : s.byteIndex ≠ 0) :
    s.byteWritten b = mapNext State.advanceIndex (runBytes (s.writeBytes b) s) := by
  rw [State.byteWritten, if_pos hd, if_neg hi]

/-- A data byte written: the instruction of the key runs and keeps the index, which then advances (R94). -/
theorem State.byteWritten_data {s : State} (hd : s.busDir = .write) (hi : s.byteIndex ≠ 0) (b : Byte) :
    ∃ i t, i.wellFormed = true ∧ instrOfKey (opcodeKey 0#1 s.activeCommand) b = some i ∧
      exec i s = .next t ∧ t.byteIndex = s.byteIndex ∧
      s.byteWritten b = .next { t with byteIndex := indexBump s.byteIndex } := by
  obtain ⟨i, hwf, hkey, hexec⟩ := exists_instr_runBytes_write s b
  obtain ⟨t, hrun, heffect⟩ := runBytes_write s b
  refine ⟨i, t, hwf, hkey, hexec.symm.trans hrun, heffect.byteIndex_eq, ?_⟩
  rw [State.byteWritten_of_index_ne_zero hd hi, hrun, mapNext_next, State.advanceIndex, heffect.byteIndex_eq]

/-- Settles O19: the step hands the byte to `State.byteWritten`, which has one equation outside a write transaction, one at
index 0 and one at a data position. -/
theorem byteWrittenHandled : Obligations.ByteWrittenHandled := by
  intro s b rest h
  have hstep : step s = State.byteWritten { s with inbox := rest } b := step_of_event h
  rw [hstep, ← indexBump_eq_ite]
  exact ⟨fun hd => State.byteWritten_of_ne_write hd, fun hd hi => State.byteWritten_of_index_zero hd hi,
    fun hd hi => State.byteWritten_data (s := { s with inbox := rest }) hd hi b⟩

/-! ### A requested byte -/

/-- The served half of a peek drives one byte (R68). -/
theorem State.serve_trace {s t : State} {l : SampleLayout} {p : Nat} (h : s.serve l p = .next t) :
    ∃ b, t.trace = s.trace ++ [.busData b] := by
  obtain ⟨-, rfl⟩ | ⟨-, -, -, rfl⟩ | ⟨-, -, -, rfl⟩ := State.serve_cases h
  all_goals exact ⟨_, rfl⟩

/-- A peek drives one byte (R68). -/
theorem State.peek_trace {s t : State} {l : SampleLayout} (h : s.peek l = .next t) :
    ∃ b, t.trace = s.trace ++ [.busData b] := by
  obtain ⟨-, rfl⟩ | ⟨-, -, -, hserve⟩ | ⟨-, -, -, hserve⟩ := State.peek_cases h
  · exact ⟨_, rfl⟩
  · exact State.serve_trace (s := s.latchEmpty) hserve
  · exact State.serve_trace hserve

/-- Every read rule drives exactly one byte (R95, R98). -/
theorem ReadEffect.trace_eq {s t : State} (h : ReadEffect s t) : ∃ b, t.trace = s.trace ++ [.busData b] := by
  cases h with
  | served b => exact ⟨b, rfl⟩
  | snapshot b => exact ⟨b, rfl⟩
  | unpacked t _ hpeek => exact State.peek_trace hpeek
  | packed t _ hpeek => exact State.peek_trace hpeek

/-- With `tail` a slot the bytes of a read instruction complete, and what they do is one of the read effects. -/
theorem runBytes_read_completes (s : State) (ht : s.tail < s.params.slots) :
    ∃ t, runBytes s.readBytes s = .next t ∧ ReadEffect s t := by
  obtain ⟨hc, hrun⟩ | ⟨hc, hrun⟩ | hdone := runBytes_read s
  · obtain ⟨t, hpeek⟩ := s.peek_completes .unpacked ht
    exact ⟨t, hrun.trans hpeek, .unpacked t hc hpeek⟩
  · obtain ⟨t, hpeek⟩ := s.peek_completes .packed ht
    exact ⟨t, hrun.trans hpeek, .packed t hc hpeek⟩
  · exact hdone

/-- Outside a read transaction a requested byte is refused (R95). -/
theorem State.byteRequested_of_ne_read {s : State} (hd : s.busDir ≠ .read) :
    s.byteRequested = .refused .byteRequestedOutsideRead :=
  if_neg hd

/-- In a read transaction the index advances, which is no part of the key, and then the key's instruction runs (R95). -/
theorem State.byteRequested_of_read {s : State} (hd : s.busDir = .read) :
    s.byteRequested = runBytes s.advanceIndex.readBytes s.advanceIndex :=
  if_pos hd

/-- A byte requested: the instruction of the key runs at the advanced index and drives one byte (R95). -/
theorem State.byteRequested_answers {s : State} (hd : s.busDir = .read) (ht : s.tail < s.params.slots) :
    ∃ i t b, i.wellFormed = true ∧ (∀ b, instrOfKey (opcodeKey 1#1 s.activeCommand) b = some i) ∧
      exec i s.advanceIndex = .next t ∧ t.trace = s.trace ++ [.busData b] ∧ s.byteRequested = .next t := by
  obtain ⟨i, hwf, hkey, hexec⟩ := exists_instr_runBytes_read s.advanceIndex
  obtain ⟨t, hrun, heffect⟩ := runBytes_read_completes s.advanceIndex ht
  obtain ⟨b, htrace⟩ := heffect.trace_eq
  exact ⟨i, t, b, hwf, hkey, hexec.symm.trans hrun, htrace, (State.byteRequested_of_read hd).trans hrun⟩

/-- Settles O20: the step hands the event to `State.byteRequested`, which has one equation outside a read transaction and
one inside it. -/
theorem byteRequestedHandled : Obligations.ByteRequestedHandled := by
  intro s rest h
  have hstep : step s = State.byteRequested { s with inbox := rest } := step_of_event h
  rw [hstep, ← indexBump_eq_ite]
  exact ⟨fun hd => State.byteRequested_of_ne_read hd,
    fun hd ht => State.byteRequested_answers (s := { s with inbox := rest }) hd ht⟩

end Sys2Proof.Machine
end

section
/-! Command 0, Control (R101, R102): what a control write does, by run bit and mode bits, and the byte read back. -/

namespace Sys2Proof.Machine

/-! ### The control byte (R42) -/

/-- The mode select is bit 2, then bit 1. -/
theorem extractLsb'_one_two_eq_append (b : Byte) :
    b.extractLsb' 1 2 = BitVec.ofBool (b.getLsbD 2) ++ BitVec.ofBool (b.getLsbD 1) := by
  revert b
  decide

/-- With bit 2 clear the mode bits select Single, whatever bit 1 is. -/
theorem modeSelected_of_bit2_clear {b : Byte} (h2 : b.getLsbD 2 = false) : modeSelected (controlMode b) = .single := by
  rw [controlMode, extractLsb'_one_two_eq_append, h2]
  cases b.getLsbD 1 <;> rfl

/-- The control byte served is the number {mode, run}. -/
theorem controlByte_eq_ofNat (m : BitVec 2) (run : Bool) :
    controlByte m run = BitVec.ofNat 8 (2 * m.toNat + run.toNat) := by
  revert m run
  decide

/-! ### The control write (R81) -/

/-- A busy sequencer's conversion is marked for discard; an idle sequencer leaves the mark as it is (R78). -/
theorem State.busy_or_eq_ite (s : State) (d : Bool) :
    (s.busy || d) = if s.seqPhase = .idle then d else true := by
  unfold State.busy
  split
  case isTrue h => rw [h]; rfl
  case isFalse h => rw [bne_iff_ne.2 h, Bool.true_or]

/-- The control bits as a control write latches them, for a known run bit. -/
theorem State.latchControl_eq (s : State) {b : Byte} {run : Bool} (hrun : b.getLsbD 0 = run) :
    s.latchControl b = { s with
      ctrlRun := run, ctrlMode := b.extractLsb' 1 2, pendingStart := false
      discardInFlight := if s.seqPhase = .idle then s.discardInFlight else true } := by
  rw [← s.busy_or_eq_ite, ← hrun]
  rfl

/-- With the run bit clear the mode entered is Off, whatever the mode bits are. -/
theorem State.controlWrite_of_stop (s : State) {b : Byte} (hstop : b.getLsbD 0 = false) :
    s.controlWrite b = (s.latchControl b).offEntry :=
  congrArg (s.latchControl b).enter (if_neg (Bool.eq_false_iff.1 hstop))

/-- With the run bit set the mode entered is the one selected. -/
theorem State.controlWrite_of_run (s : State) {b : Byte} (hrun : b.getLsbD 0 = true) :
    s.controlWrite b = (s.latchControl b).enter (modeSelected (controlMode b)) :=
  congrArg (s.latchControl b).enter (if_pos hrun)

/-- Single entry with no start pending: an idle sequencer begins phase A; a busy one, its conversion marked for discard,
latches the start (R84, R72). -/
theorem State.singleEntry_eq {s : State} (hbusy : s.seqPhase ≠ .idle → s.discardInFlight = true)
    (hpending : s.pendingStart = false) :
    s.singleEntry = { s with
      pendingStart := if s.seqPhase = .idle then false else true
      seqPhase := if s.seqPhase = .idle then .settleA else s.seqPhase
      trace := if s.seqPhase = .idle then s.trace ++ [.settleArm] else s.trace
      mode := .single, head := 0, tail := 0, overrunCount := 0 } := by
  by_cases hidle : s.seqPhase = .idle
  case pos =>
    rw [if_pos hidle, if_pos hidle, if_pos hidle, ← hpending]
    exact State.requestStart_of_idle (s := { s with mode := .single }.fifoReset) hidle
  case neg =>
    rw [if_neg hidle, if_neg hidle, if_neg hidle]
    exact State.requestStart_of_discarding (s := { s with mode := .single }.fifoReset) hidle (hbusy hidle)

/-- A control write with the run bit clear (R81, R83). -/
theorem State.controlWrite_stop (s : State) {b : Byte} (hstop : b.getLsbD 0 = false) :
    s.controlWrite b = { s with
      ctrlRun := false, ctrlMode := b.extractLsb' 1 2, pendingStart := false
      discardInFlight := if s.seqPhase = .idle then s.discardInFlight else true
      mode := .off, head := 0, tail := 0, overrunCount := 0 } := by
  rw [s.controlWrite_of_stop hstop, s.latchControl_eq hstop]
  rfl

/-- A control write that selects Single (R81, R84). -/
theorem State.controlWrite_single (s : State) {b : Byte} (hrun : b.getLsbD 0 = true) (h2 : b.getLsbD 2 = false) :
    s.controlWrite b = { s with
      ctrlRun := true, ctrlMode := b.extractLsb' 1 2
      pendingStart := if s.seqPhase = .idle then false else true
      discardInFlight := if s.seqPhase = .idle then s.discardInFlight else true
      seqPhase := if s.seqPhase = .idle then .settleA else s.seqPhase
      trace := if s.seqPhase = .idle then s.trace ++ [.settleArm] else s.trace
      mode := .single, head := 0, tail := 0, overrunCount := 0 } := by
  rw [s.controlWrite_of_run hrun, modeSelected_of_bit2_clear h2, s.latchControl_eq hrun]
  exact State.singleEntry_eq (fun hbusy => if_neg hbusy) rfl

/-- A control write that selects Trigger (R81, R85). -/
theorem State.controlWrite_trigger (s : State) {b : Byte} (hrun : b.getLsbD 0 = true) (h2 : b.getLsbD 2 = true)
    (h1 : b.getLsbD 1 = false) :
    s.controlWrite b = { s with
      ctrlRun := true, ctrlMode := 0b10, pendingStart := false
      discardInFlight := if s.seqPhase = .idle then s.discardInFlight else true
      mode := .trigger } := by
  rw [s.controlWrite_of_run hrun, s.latchControl_eq hrun, controlMode, extractLsb'_one_two_eq_append, h2, h1]
  rfl

/-- A control write that selects Timer (R81, R86). -/
theorem State.controlWrite_timer (s : State) {b : Byte} (hrun : b.getLsbD 0 = true) (h2 : b.getLsbD 2 = true)
    (h1 : b.getLsbD 1 = true) :
    s.controlWrite b = { s with
      ctrlRun := true, ctrlMode := 0b11, pendingStart := false
      discardInFlight := if s.seqPhase = .idle then s.discardInFlight else true
      mode := .timer, currentCountdown := s.targetPeriod, cumulativeTicks := 0, oscTrimOut := s.trim } := by
  rw [s.controlWrite_of_run hrun, s.latchControl_eq hrun, controlMode, extractLsb'_one_two_eq_append, h2, h1]
  rfl

/-! ### The two rows -/

/-- At position 1 the row is a control write. -/
theorem exec_c0wControl_of_one {s : State} (hi : s.byteIndex = 1) (b : Byte) :
    exec (.c0wControl b) s = .next (s.controlWrite b) :=
  congrArg Host.Outcome.next (if_pos hi)

/-- At every other position the byte is ignored. -/
theorem exec_c0wControl_of_ne_one {s : State} (hi : s.byteIndex ≠ 1) (b : Byte) :
    exec (.c0wControl b) s = .next s :=
  congrArg Host.Outcome.next (if_neg hi)

/-- Settles O29: position 1 is a control write, which has one equation per mode entered. -/
theorem controlWriteEntersMode : Obligations.ControlWriteEntersMode := by
  intro b s
  refine ⟨instrOfKey_write (c := 0x00) rfl, fun hi => exec_c0wControl_of_ne_one hi b, ?stop, ?single, ?trigger, ?timer⟩
  case stop =>
    intro hi hstop
    rw [exec_c0wControl_of_one hi, s.controlWrite_stop hstop]
  case single =>
    intro hi hrun h2
    rw [exec_c0wControl_of_one hi, s.controlWrite_single hrun h2]
  case trigger =>
    intro hi hrun h2 h1
    rw [exec_c0wControl_of_one hi, s.controlWrite_trigger hrun h2 h1]
  case timer =>
    intro hi hrun h2 h1
    rw [exec_c0wControl_of_one hi, s.controlWrite_timer hrun h2 h1]

/-- Settles O30: the byte served is the control byte, read as a number. -/
theorem controlReadBack : Obligations.ControlReadBack := by
  intro s
  rw [← controlByte_eq_ofNat]
  exact ⟨fun b => instrOfKey_read (c := 0x00) b rfl, rfl⟩

end Sys2Proof.Machine
end

section
/-! Commands 1, 6, 7 and 2: the period, the tick counter, the identity and the count (R103..R107, R113..R116). -/

namespace Sys2Proof.Machine

/-! ### Slices and positions as numbers -/

/-- A slice is the number left when the bits below it are dropped, cut to the slice's width. -/
theorem extractLsb'_eq_ofNat_div {n : Nat} (i k : Nat) (x : BitVec n) :
    x.extractLsb' i k = BitVec.ofNat k (x.toNat / 2 ^ i) := by
  rw [BitVec.extractLsb', Nat.shiftRight_eq_div_pow]

/-- The low slice is the number itself, cut to the slice's width. -/
theorem extractLsb'_low_eq_ofNat {n : Nat} (k : Nat) (x : BitVec n) :
    x.extractLsb' 0 k = BitVec.ofNat k x.toNat := by
  rw [extractLsb'_eq_ofNat_div, Nat.pow_zero, Nat.div_one]

/-- A position compared as a number is the index register compared with that byte. -/
theorem byte_toNat_eq_iff (i : Byte) {n : Nat} (hn : n < 256) : i.toNat = n ↔ i = BitVec.ofNat 8 n :=
  BitVec.toNat_eq_nat.trans (and_iff_right hn)

/-! ### Command 1, Timer period -/

/-- The period assembled from its bytes is {high, low} as a number (R43). -/
theorem toNat_periodOfBytes (hi lo : Byte) : (periodOfBytes hi lo).toNat = 256 * hi.toNat + lo.toNat := by
  rw [periodOfBytes, toNat_append_eq_mul_add, Nat.mul_comm]
  rfl

/-- The clamp is the maximum with 2 (R43). -/
theorem clampPeriod_eq_ofNat_max (v : BitVec 16) : clampPeriod v = BitVec.ofNat 16 (max v.toNat 2) := by
  unfold clampPeriod
  split
  case isTrue h => rw [Nat.max_eq_right (Nat.le_of_lt h)]; rfl
  case isFalse h => rw [Nat.max_eq_left (Nat.le_of_not_lt h), BitVec.ofNat_toNat, BitVec.setWidth_eq]

/-- The byte served is the period's base-256 digit: the low one at position 1, the high one at position 2 (R104). -/
theorem periodByte_eq_ite (v : BitVec 16) (i : Byte) :
    periodByte v i.toNat =
      if i = 1 then BitVec.ofNat 8 (v.toNat % 256)
      else if i = 2 then BitVec.ofNat 8 (v.toNat / 256)
      else 0x00 := by
  have hlow : v.extractLsb' 0 8 = BitVec.ofNat 8 (v.toNat % 256) := by
    rw [extractLsb'_low_eq_ofNat]
    exact BitVec.eq_of_toNat_eq (Nat.mod_mod v.toNat 256).symm
  exact if_congr (byte_toNat_eq_iff i (by decide)) hlow
    (if_congr (byte_toNat_eq_iff i (by decide)) (extractLsb'_eq_ofNat_div 8 8 v) rfl)

/-- Settles O31: at position 2 the assembled number is clamped before it is stored. -/
theorem periodWriteByPosition : Obligations.PeriodWriteByPosition := by
  intro b s
  refine ⟨instrOfKey_write (c := 0x01) rfl, fun hi => congrArg _ (if_pos hi), fun hi => ?assembled,
    fun h1 h2 => congrArg _ ((if_neg h1).trans (if_neg h2))⟩
  case assembled =>
    have h1 : s.byteIndex ≠ 1 := by rw [hi]; decide
    rw [← toNat_periodOfBytes, ← clampPeriod_eq_ofNat_max]
    exact congrArg _ ((if_neg h1).trans (if_pos hi))

/-- Settles O32: the byte served is `periodByte`, read as a number. -/
theorem periodReadBytes : Obligations.PeriodReadBytes := by
  intro s
  rw [← periodByte_eq_ite]
  exact ⟨fun b => instrOfKey_read (c := 0x01) b rfl, rfl⟩

/-! ### Command 6, Timer tick counter -/

/-- At positions 1..4 the byte served is the counter's base-256 digit of that place, least significant first (R48). -/
theorem tickByte_of_inside (snap : BitVec 32) {i : Nat} (h1 : 1 ≤ i) (h4 : i ≤ 4) :
    tickByte snap i = BitVec.ofNat 8 (snap.toNat / 256 ^ (i - 1)) := by
  have hplace : 2 ^ (8 * i - 8) = 256 ^ (i - 1) := by
    rw [show 8 * i - 8 = 8 * (i - 1) by omega, Nat.pow_mul]
  rw [tickByte, if_pos ⟨h1, h4⟩, extractLsb'_eq_ofNat_div, hplace]

/-- Outside positions 1..4 the byte served is zero (R48). -/
theorem tickByte_of_outside (snap : BitVec 32) {i : Nat} (h : i = 0 ∨ 4 < i) : tickByte snap i = 0x00 :=
  if_neg fun hinside => by omega

/-- At position 1 the snapshot is the counter (R114). -/
theorem State.snapshotTicks_of_one {s : State} (hi : s.byteIndex = 1) :
    s.snapshotTicks = { s with tickSnap := s.cumulativeTicks } := by
  rw [State.snapshotTicks, if_pos hi]

/-- At every other position the snapshot stays (R114). -/
theorem State.snapshotTicks_of_ne_one {s : State} (hi : s.byteIndex.toNat ≠ 1) : s.snapshotTicks = s := by
  have hne : s.byteIndex ≠ 1 := fun h => hi (by rw [h]; rfl)
  rw [State.snapshotTicks, if_neg hne]

/-- The read serves a byte of the snapshot, taken first. -/
theorem exec_c6rTicks (s : State) :
    exec .c6rTicks s = .next (s.snapshotTicks.emit (tickByte s.snapshotTicks.tickSnap s.byteIndex.toNat)) :=
  rfl

/-- Settles O40: position 1 serves digit 0 of the counter it has just taken, the later positions serve the snapshot they
find. -/
theorem tickCounterSnapshotRead : Obligations.TickCounterSnapshotRead := by
  intro s
  rw [exec_c6rTicks]
  refine ⟨fun b => instrOfKey_read (c := 0x06) b rfl, fun hi => ?first, fun h2 h4 => ?later, fun h => ?outside⟩
  case first =>
    have hpos : s.byteIndex.toNat = 1 := by rw [hi]; rfl
    rw [State.snapshotTicks_of_one hi, hpos, tickByte_of_inside _ (by decide) (by decide), Nat.pow_zero, Nat.div_one]
    rfl
  case later =>
    rw [State.snapshotTicks_of_ne_one (by omega), tickByte_of_inside _ (by omega) h4]
    rfl
  case outside =>
    rw [State.snapshotTicks_of_ne_one (by omega), tickByte_of_outside _ h]
    rfl

/-! ### Command 7, Identity -/

/-- The identity byte by the index register (R49). -/
theorem identityByte_eq_ite (p : Params) (i : Byte) :
    identityByte p i.toNat =
      if i = 1 then p.idTag
      else if i = 2 then p.markerTag
      else if i = 3 then p.verMajor
      else if i = 4 then p.verMinor
      else 0x00 :=
  if_congr (byte_toNat_eq_iff i (by decide)) rfl <| if_congr (byte_toNat_eq_iff i (by decide)) rfl <|
    if_congr (byte_toNat_eq_iff i (by decide)) rfl <| if_congr (byte_toNat_eq_iff i (by decide)) rfl rfl

/-- Settles O41: the byte served is `identityByte`. -/
theorem identityRead : Obligations.IdentityRead := by
  intro s
  rw [← identityByte_eq_ite]
  exact ⟨fun b => instrOfKey_read (c := 0x07) b rfl, rfl⟩

/-! ### Command 2, Data count -/

/-- The count as an integer: with at least one slot the remainder is not negative (R67). -/
theorem State.count_cast (s : State) (h : 0 < s.params.slots) :
    (s.count : Int) = ((s.head : Int) - (s.tail : Int)) % (s.params.slots : Int) :=
  Int.toNat_of_nonneg (Int.emod_nonneg _ (by omega))

/-- Settles O33: the count is the integer remainder itself. -/
theorem countReadAtPositionOne : Obligations.CountReadAtPositionOne := by
  intro s hslots
  refine ⟨fun b => instrOfKey_read (c := 0x02) b rfl, fun hi => ?first, fun hi => ?other⟩
  case first =>
    rw [← s.count_cast (by omega), BitVec.ofInt_natCast]
    exact congrArg (fun b => Host.Outcome.next (s.emit b)) (if_pos hi)
  case other => exact congrArg (fun b => Host.Outcome.next (s.emit b)) (if_neg hi)

/-- Settles O34: each of the five rows has the same meaning, the state as it is. -/
theorem readOnlyCommandsIgnoreData : Obligations.ReadOnlyCommandsIgnoreData := by
  intro b s
  exact ⟨⟨instrOfKey_write (c := 0x02) rfl, rfl⟩, ⟨instrOfKey_write (c := 0x03) rfl, rfl⟩,
    ⟨instrOfKey_write (c := 0x04) rfl, rfl⟩, ⟨instrOfKey_write (c := 0x06) rfl, rfl⟩,
    ⟨instrOfKey_write (c := 0x07) rfl, rfl⟩⟩

end Sys2Proof.Machine
end

section
/-! Commands 3 and 4, Unpacked and Packed data (R108, R110): the peek of R68 by the place of a position in its cycle, said
once for both layouts, and the bytes of the two layouts (R45, R46). -/

namespace Sys2Proof.Machine

/-! ### The cycle position (R55) -/

/-- Inside a cycle the position is the remainder of the index. -/
theorem SampleLayout.position_eq_of_mod {l : SampleLayout} {i p : Nat} (hp : 1 ≤ p) (h : i % l.cycle = p) :
    l.position i = p := by
  unfold SampleLayout.position
  cases l
  all_goals
    simp only [SampleLayout.cycle] at h ⊢
    omega

/-- At a multiple of the cycle the position is the last one. -/
theorem SampleLayout.position_eq_cycle {l : SampleLayout} {i : Nat} (hi : i ≠ 0) (h : i % l.cycle = 0) :
    l.position i = l.cycle := by
  unfold SampleLayout.position
  cases l
  all_goals
    simp only [SampleLayout.cycle] at h ⊢
    omega

/-- Position 1 is exactly remainder 1. -/
theorem SampleLayout.position_eq_one_iff {l : SampleLayout} {i : Nat} (hi : i ≠ 0) :
    l.position i = 1 ↔ i % l.cycle = 1 := by
  unfold SampleLayout.position
  cases l
  all_goals
    simp only [SampleLayout.cycle]
    omega

/-! ### Serving past the latch (R68) -/

/-- A cycle latched empty serves zero. -/
theorem State.serve_of_latched {s : State} (he : s.rdEmpty = true) (l : SampleLayout) (p : Nat) :
    s.serve l p = .next (s.emit 0x00) :=
  if_pos he

/-- Any other cycle serves the sample's byte, and advances `tail` after the last one. -/
theorem State.serve_of_held {s : State} (he : s.rdEmpty = false) (ht : s.tail < s.params.slots) (l : SampleLayout)
    (p : Nat) :
    s.serve l p = .next ((if p = l.cycle then s.advanceTail else s).emit (l.byte (s.buf.read s.tail) p)) :=
  (if_neg (Bool.eq_false_iff.1 he)).trans (if_pos ht)

/-! ### The peek by position (R68) -/

/-- Outside positions 1..L * KMAX a peek serves zero. -/
theorem State.peek_of_outside {s : State} {l : SampleLayout}
    (h : s.byteIndex.toNat = 0 ∨ l.cycle * l.maxSamples < s.byteIndex.toNat) :
    s.peek l = .next (s.emit 0x00) :=
  if_pos (h.imp_left Nat.lt_one_iff.2)

section
variable {s : State} {l : SampleLayout} (hmax : s.byteIndex.toNat ≤ l.cycle * l.maxSamples)
include hmax

/-- Inside the limit a peek serves the cycle position, after the latch at a first one. -/
theorem State.peek_of_inside (hi : s.byteIndex.toNat ≠ 0) :
    s.peek l = (if l.position s.byteIndex.toNat = 1 then s.latchEmpty else s).serve l
      (l.position s.byteIndex.toNat) :=
  if_neg (by omega)

/-- At a cycle's first position emptiness is latched, then byte 1 is served. -/
theorem State.peek_of_first (hmod : s.byteIndex.toNat % l.cycle = 1) : s.peek l = s.latchEmpty.serve l 1 := by
  have hi : s.byteIndex.toNat ≠ 0 := fun h => by simp [h] at hmod
  have hpos := SampleLayout.position_eq_of_mod (Nat.le_refl 1) hmod
  rw [State.peek_of_inside hmax hi, hpos, if_pos rfl]

/-- At a later position of a cycle the latch stays. -/
theorem State.peek_of_later (hi : s.byteIndex.toNat ≠ 0) (hmod : s.byteIndex.toNat % l.cycle ≠ 1) :
    s.peek l = s.serve l (l.position s.byteIndex.toNat) := by
  rw [State.peek_of_inside hmax hi, if_neg (mt (SampleLayout.position_eq_one_iff hi).1 hmod)]

/-- First position, empty buffer: the cycle is latched empty and serves zero. -/
theorem State.peek_first_empty (hmod : s.byteIndex.toNat % l.cycle = 1) (hempty : s.head = s.tail) :
    s.peek l = .next { s with rdEmpty := true, trace := s.trace ++ [.busData 0x00] } := by
  have hlatch : s.isEmpty = true := beq_iff_eq.2 hempty
  rw [State.peek_of_first hmax hmod, State.serve_of_latched hlatch, State.latchEmpty, hlatch]
  rfl

/-- First position, a sample held: its first byte is served. -/
theorem State.peek_first_held (hmod : s.byteIndex.toNat % l.cycle = 1) (hheld : s.head ≠ s.tail)
    (ht : s.tail < s.params.slots) :
    s.peek l = .next { s with
      rdEmpty := false, trace := s.trace ++ [.busData (l.byte (s.buf.read s.tail) 1)] } := by
  have hlatch : s.isEmpty = false := beq_false_of_ne hheld
  have hcycle : 1 ≠ l.cycle := by cases l <;> decide
  rw [State.peek_of_first hmax hmod, State.serve_of_held (s := s.latchEmpty) hlatch ht, if_neg hcycle,
    State.latchEmpty, hlatch]
  rfl

/-- A later position of a cycle latched empty serves zero. -/
theorem State.peek_later_latched (hi : s.byteIndex.toNat ≠ 0) (hmod : s.byteIndex.toNat % l.cycle ≠ 1)
    (he : s.rdEmpty = true) : s.peek l = .next (s.emit 0x00) :=
  (State.peek_of_later hmax hi hmod).trans (State.serve_of_latched he l _)

/-- A position between the first and the last serves the sample's byte of that place. -/
theorem State.peek_middle {p : Nat} (hp : 2 ≤ p) (hlast : p ≠ l.cycle) (hmod : s.byteIndex.toNat % l.cycle = p)
    (he : s.rdEmpty = false) (ht : s.tail < s.params.slots) :
    s.peek l = .next (s.emit (l.byte (s.buf.read s.tail) p)) := by
  have hi : s.byteIndex.toNat ≠ 0 := fun h => by simp [h] at hmod; omega
  rw [State.peek_of_later hmax hi (by omega), SampleLayout.position_eq_of_mod (by omega) hmod,
    State.serve_of_held he ht, if_neg hlast]

/-- The last position of a cycle serves the sample's last byte and advances `tail`. -/
theorem State.peek_last (hi : s.byteIndex.toNat ≠ 0) (hmod : s.byteIndex.toNat % l.cycle = 0)
    (he : s.rdEmpty = false) (ht : s.tail < s.params.slots) :
    s.peek l = .next (s.advanceTail.emit (l.byte (s.buf.read s.tail) l.cycle)) := by
  rw [State.peek_of_later hmax hi (by omega), SampleLayout.position_eq_cycle hi hmod,
    State.serve_of_held he ht, if_pos rfl]

end

/-! ### The bytes that are cut out of two fields or more -/

/-- Byte 4 of the unpacked layout, field by field (R45). -/
theorem unpackedByte_four_eq_append (x : Sample) :
    unpackedByte x 4 = 0#2 ++ BitVec.ofBool x.valid ++ x.ov ++ x.b.extractLsb' 8 2 := by
  apply BitVec.eq_of_toNat_eq
  rw [toNat_unpackedByte_four, toNat_append_eq_mul_add, toNat_append_eq_mul_add, toNat_append_eq_mul_add,
    toNat_extractLsb'_top 8 2 x.b, BitVec.toNat_ofBool, BitVec.toNat_ofNat]
  omega

/-- Byte 1 of the packed layout is the low byte of channel A (R46). -/
theorem packedByte_one_eq_extract (x : Sample) : packedByte x 1 = x.a.extractLsb' 0 8 := by
  apply BitVec.eq_of_toNat_eq
  rw [toNat_packedByte x (by decide) (by decide), toNat_packedWord, toNat_extractLsb'_low]
  omega

/-- Byte 2 of the packed layout: the low bits of channel B over the high bits of channel A (R46). -/
theorem packedByte_two_eq_append (x : Sample) :
    packedByte x 2 = x.b.extractLsb' 0 6 ++ x.a.extractLsb' 8 2 := by
  apply BitVec.eq_of_toNat_eq
  rw [toNat_packedByte x (by decide) (by decide), toNat_packedWord, toNat_append_eq_mul_add, toNat_extractLsb'_low,
    toNat_extractLsb'_top 8 2 x.a]
  omega

/-- Byte 3 of the packed layout: `valid`, `ov`, and the high bits of channel B (R46). -/
theorem packedByte_three_eq_append (x : Sample) :
    packedByte x 3 = BitVec.ofBool x.valid ++ x.ov ++ x.b.extractLsb' 6 4 := by
  apply BitVec.eq_of_toNat_eq
  rw [toNat_packedByte x (by decide) (by decide), toNat_packedWord, toNat_append_eq_mul_add, toNat_append_eq_mul_add,
    toNat_extractLsb'_top 6 4 x.b, BitVec.toNat_ofBool]
  have hvalid := x.valid.toNat_le
  omega

/-! ### The two rows -/

/-- Command 3 is the peek with the unpacked layout. -/
theorem exec_c3rUnpacked (s : State) : exec .c3rUnpacked s = s.peek .unpacked := rfl

/-- Command 4 is the peek with the packed layout. -/
theorem exec_c4rPacked (s : State) : exec .c4rPacked s = s.peek .packed := rfl

/-- Settles O35: one equation of the peek per clause, at L = 4 and limit 28; bytes 1 to 3 are slices of one channel, byte 4
is put together. -/
theorem unpackedReadByPosition : Obligations.UnpackedReadByPosition := by
  intro s
  rw [exec_c3rUnpacked, ← unpackedByte_four_eq_append]
  exact ⟨fun b => instrOfKey_read (c := 0x03) b rfl,
    fun h => State.peek_of_outside h,
    fun hmax hmod hempty => State.peek_first_empty hmax hmod hempty,
    fun hmax hmod hheld ht => State.peek_first_held hmax hmod hheld ht,
    fun hi hmax hmod he => State.peek_later_latched hmax hi hmod he,
    fun hmax hmod he ht => State.peek_middle (l := .unpacked) (p := 2) hmax (by decide) (by decide) hmod he ht,
    fun hmax hmod he ht => State.peek_middle (l := .unpacked) (p := 3) hmax (by decide) (by decide) hmod he ht,
    fun hi hmax hmod he ht => State.peek_last hmax hi hmod he ht⟩

/-- Settles O36: one equation of the peek per clause, at L = 3 and limit 30, with the bytes of the packed word written as
slices of the fields. -/
theorem packedReadByPosition : Obligations.PackedReadByPosition := by
  intro s
  rw [exec_c4rPacked, ← packedByte_one_eq_extract, ← packedByte_two_eq_append, ← packedByte_three_eq_append]
  exact ⟨fun b => instrOfKey_read (c := 0x04) b rfl,
    fun h => State.peek_of_outside h,
    fun hmax hmod hempty => State.peek_first_empty hmax hmod hempty,
    fun hmax hmod hheld ht => State.peek_first_held hmax hmod hheld ht,
    fun hi hmax hmod he => State.peek_later_latched hmax hi hmod he,
    fun hmax hmod he ht => State.peek_middle (l := .packed) (p := 2) hmax (by decide) (by decide) hmod he ht,
    fun hi hmax hmod he ht => State.peek_last hmax hi hmod he ht⟩

end Sys2Proof.Machine
end

section
/-! Commands 5, 8 and 9: the staged address, the trim and the commit sequence (R111, R112, R117..R120). -/

namespace Sys2Proof.Machine

/-! ### Command 5, Slave address stage -/

/-- A byte in range at position 1 is staged (R111). -/
theorem exec_c5wAddrStage_of_inRange {s : State} {b : Byte} (hi : s.byteIndex = 1) (hr : addressInRange b = true) :
    exec (.c5wAddrStage b) s = .next { s with stagedAddress := addressOfByte b } :=
  congrArg Host.Outcome.next (if_pos ⟨hi, hr⟩)

/-- Any other byte, and any other position, is ignored (R111). -/
theorem exec_c5wAddrStage_of_ignored {s : State} {b : Byte} (h : ¬(s.byteIndex = 1 ∧ addressInRange b = true)) :
    exec (.c5wAddrStage b) s = .next s :=
  congrArg Host.Outcome.next (if_neg h)

/-- Settles O38: the range check is the inequality, and the address staged is the byte's number. -/
theorem addressStageRangeChecked : Obligations.AddressStageRangeChecked := by
  intro b s
  refine ⟨instrOfKey_write (c := 0x05) rfl, fun hi hlo hhi => ?staged, fun h => ?ignored⟩
  case staged =>
    rw [← extractLsb'_low_eq_ofNat]
    exact exec_c5wAddrStage_of_inRange hi ((addressInRange_iff b).2 ⟨hlo, hhi⟩)
  case ignored =>
    refine exec_c5wAddrStage_of_ignored fun ⟨hi, hr⟩ => ?_
    obtain ⟨hlo, hhi⟩ := (addressInRange_iff b).1 hr
    exact h.elim (fun hne => hne hi) (by omega)

/-! ### Command 8, Oscillator trim -/

/-- The trim of a byte as a number is its remainder modulo 64 (R51). -/
theorem toNat_trimOfByte (b : Byte) : (trimOfByte b).toNat = b.toNat % 64 :=
  toNat_extractLsb'_low 6 b

/-- The trim of a byte as a signed number: from 32 on it stands for 64 less (R51). -/
theorem toInt_trimOfByte (b : Byte) :
    (trimOfByte b).toInt = if b.toNat % 64 < 32 then (b.toNat % 64 : Int) else (b.toNat % 64 : Int) - 64 := by
  rw [BitVec.toInt_eq_toNat_cond, toNat_trimOfByte]
  split <;> split <;> omega

/-- The byte of a trim is the same signed number (R51). -/
theorem toInt_byteOfTrim (t : BitVec 6) : (byteOfTrim t).toInt = t.toInt :=
  BitVec.toInt_signExtend_of_le (by decide)

/-- Settles O42: the trim stored at position 1 is the signed number of the byte's low six bits. -/
theorem trimWriteAtPositionOne : Obligations.TrimWriteAtPositionOne := by
  intro b s
  exact ⟨instrOfKey_write (c := 0x08) rfl, fun hi => ⟨trimOfByte b, congrArg _ (if_pos hi), toInt_trimOfByte b⟩,
    fun hi => congrArg _ (if_neg hi)⟩

/-- Settles O43: the byte served at position 1 is the sign extension, which keeps the signed number. -/
theorem trimReadSignExtended : Obligations.TrimReadSignExtended := by
  intro s
  exact ⟨fun b => instrOfKey_read (c := 0x08) b rfl,
    fun hi => ⟨byteOfTrim s.trim, congrArg (fun b => Host.Outcome.next (s.emit b)) (if_pos hi),
      toInt_byteOfTrim s.trim⟩,
    fun hi => congrArg (fun b => Host.Outcome.next (s.emit b)) (if_neg hi)⟩

/-! ### Command 9, Commit -/

/-- Byte 2 completes the sequence exactly when it is 0xAA and the arm is set (R119). -/
theorem completesCommit_iff (armed : Bool) (b : Byte) : completesCommit armed b = true ↔ armed = true ∧ b = 0xAA := by
  rw [completesCommit, Bool.and_eq_true, beq_iff_eq]

/-- Position 2 disarms, and raises the request when the byte completes the sequence (R119). -/
theorem exec_c9wCommit_of_two {s : State} (hi : s.byteIndex = 2) (b : Byte) :
    exec (.c9wCommit b) s = .next { s with
      commitRequested := s.commitRequested || completesCommit s.commitArm b, commitArm := false } := by
  have h1 : s.byteIndex ≠ 1 := by rw [hi]; decide
  exact congrArg _ ((if_neg h1).trans (if_pos hi))

/-- Settles O44: position 1 stores the comparison with 0x55; position 2 raises the request exactly when the byte completes
the sequence. -/
theorem commitWriteArmsAndRequests : Obligations.CommitWriteArmsAndRequests := by
  intro b s
  refine ⟨instrOfKey_write (c := 0x09) rfl, fun hi => congrArg _ (if_pos hi), fun hi harm hb => ?requested,
    fun hi h => ?dropped, fun h1 h2 => congrArg _ ((if_neg h1).trans (if_neg h2))⟩
  case requested =>
    rw [exec_c9wCommit_of_two hi, (completesCommit_iff s.commitArm b).2 ⟨harm, hb⟩, Bool.or_true]
  case dropped =>
    have hnot : completesCommit s.commitArm b = false := by
      refine Bool.eq_false_iff.2 fun hc => ?_
      obtain ⟨harm, hb⟩ := (completesCommit_iff s.commitArm b).1 hc
      exact h.elim (fun hdis => Bool.eq_false_iff.1 hdis harm) (fun hne => hne hb)
    rw [exec_c9wCommit_of_two hi, hnot, Bool.or_false]

/-- Settles O39: both rows serve zero whatever the state. -/
theorem writeOnlyCommandsReadZero : Obligations.WriteOnlyCommandsReadZero := by
  intro s
  exact ⟨⟨fun b => instrOfKey_read (c := 0x05) b rfl, rfl⟩, ⟨fun b => instrOfKey_read (c := 0x09) b rfl, rfl⟩⟩

end Sys2Proof.Machine
end

section
/-! Commands 10..255, unrecognized (R121, R122): the six rows of each direction and their one meaning. -/

namespace Sys2Proof.Machine

/-- The instructions of the six write rows for a command and a data byte (R121). -/
def unrecognizedWrites (c b : Byte) : List Instr :=
  [.cxw10to11 c b, .cxw12to15 c b, .cxw16to31 c b, .cxw32to63 c b, .cxw64to127 c b, .cxw128to255 c b]

/-- The instructions of the six read rows for a command (R122). -/
def unrecognizedReads (c : Byte) : List Instr :=
  [.cxr10to11 c, .cxr12to15 c, .cxr16to31 c, .cxr32to63 c, .cxr64to127 c, .cxr128to255 c]

/-- From command 10 on, the row is one of the six behind the ten known commands. -/
theorem commandRow_of_ten_le {c : Byte} (h : 10 ≤ c.toNat) :
    commandRow c = 10 ∨ commandRow c = 11 ∨ commandRow c = 12 ∨ commandRow c = 13 ∨ commandRow c = 14 ∨
      commandRow c = 15 := by
  unfold commandRow
  split_ifs
  all_goals omega

/-- A write of an unrecognized command is of one of the six rows. -/
theorem exists_unrecognizedWrite {c : Byte} (h : 10 ≤ c.toNat) (b : Byte) :
    ∃ i, instrOfKey (opcodeKey 0#1 c) b = some i ∧ i ∈ unrecognizedWrites c b := by
  rcases commandRow_of_ten_le h with hr | hr | hr | hr | hr | hr
  all_goals exact ⟨_, instrOfKey_write (by rw [hr]; rfl), by simp [unrecognizedWrites]⟩

/-- A read of an unrecognized command is of one of the six rows, and holds no data byte. -/
theorem exists_unrecognizedRead {c : Byte} (h : 10 ≤ c.toNat) :
    ∃ i, (∀ b, instrOfKey (opcodeKey 1#1 c) b = some i) ∧ i ∈ unrecognizedReads c := by
  rcases commandRow_of_ten_le h with hr | hr | hr | hr | hr | hr
  all_goals exact ⟨_, fun b => instrOfKey_read b (by rw [hr]; rfl), by simp [unrecognizedReads]⟩

/-- The six write rows change nothing. -/
theorem exec_unrecognizedWrite (c b : Byte) (s : State) : ∀ i ∈ unrecognizedWrites c b, exec i s = .next s := by
  simp only [unrecognizedWrites, List.forall_mem_cons]
  exact ⟨rfl, rfl, rfl, rfl, rfl, rfl, List.forall_mem_nil _⟩

/-- The six read rows serve zero and change nothing else. -/
theorem exec_unrecognizedRead (c : Byte) (s : State) : ∀ i ∈ unrecognizedReads c, exec i s = .next (s.emit 0x00) := by
  simp only [unrecognizedReads, List.forall_mem_cons]
  exact ⟨rfl, rfl, rfl, rfl, rfl, rfl, List.forall_mem_nil _⟩

/-- Settles O45: the row is one of the six, and the six change nothing. -/
theorem unrecognizedWritesIgnored : Obligations.UnrecognizedWritesIgnored := by
  intro c b s
  refine ⟨fun h => ?row, rfl, rfl, rfl, rfl, rfl, rfl⟩
  case row =>
    obtain ⟨i, hkey, hmem⟩ := exists_unrecognizedWrite h b
    exact ⟨i, hkey, exec_unrecognizedWrite c b s i hmem, hmem⟩

/-- Settles O46: the row is one of the six, and the six serve zero. -/
theorem unrecognizedReadsZero : Obligations.UnrecognizedReadsZero := by
  intro c s
  refine ⟨fun h => ?row, exec_unrecognizedRead c s⟩
  case row =>
    obtain ⟨i, hkey, hmem⟩ := exists_unrecognizedRead h
    exact ⟨i, hkey, exec_unrecognizedRead c s i hmem, hmem⟩

end Sys2Proof.Machine
end

section
/-! Refusals (R128): for each handler of an input event, exactly when it refuses the event and under which name. -/

namespace Sys2Proof.Machine

/-- A mapped outcome is a refusal exactly when the outcome is. -/
theorem mapNext_eq_refused {f : State → State} {o : Result} {why : Refusal} :
    mapNext f o = .refused why ↔ o = .refused why := by
  cases o <;> simp [mapNext]

/-! ### The ring buffer refuses nothing -/

/-- A push completes or faults (R65, R26). -/
theorem State.push_ne_refused (s : State) (a b : BitVec 10) (why : Refusal) : s.push a b ≠ .refused why := by
  unfold State.push
  split_ifs
  all_goals nofun

/-- The served half of a peek completes or faults (R68, R26). -/
theorem State.serve_ne_refused (s : State) (l : SampleLayout) (p : Nat) (why : Refusal) :
    s.serve l p ≠ .refused why := by
  unfold State.serve
  split_ifs
  all_goals nofun

/-- A peek completes or faults (R68, R26). -/
theorem State.peek_ne_refused (s : State) (l : SampleLayout) (why : Refusal) : s.peek l ≠ .refused why := by
  by_cases hout : s.byteIndex.toNat = 0 ∨ l.cycle * l.maxSamples < s.byteIndex.toNat
  case pos =>
    rw [State.peek_of_outside hout]
    nofun
  case neg =>
    rw [State.peek_of_inside (by omega) (by omega)]
    exact State.serve_ne_refused _ _ _ _

/-! ### The byte events -/

/-- The rows cover every key, so the bytes of a write instruction are never refused (R57, R97). -/
theorem runBytes_write_ne_refused (s : State) (b : Byte) (why : Refusal) :
    runBytes (s.writeBytes b) s ≠ .refused why := by
  obtain ⟨t, hrun, -⟩ := runBytes_write s b
  rw [hrun]
  nofun

/-- The rows cover every key, so the bytes of a read instruction are never refused (R57, R98). -/
theorem runBytes_read_ne_refused (s : State) (why : Refusal) : runBytes s.readBytes s ≠ .refused why := by
  obtain ⟨-, hrun⟩ | ⟨-, hrun⟩ | ⟨t, hrun, -⟩ := runBytes_read s
  · rw [hrun]
    exact s.peek_ne_refused .unpacked why
  · rw [hrun]
    exact s.peek_ne_refused .packed why
  · rw [hrun]
    nofun

/-- A written byte is refused exactly outside a write transaction (R94). -/
theorem State.byteWritten_eq_refused_iff {s : State} {b : Byte} {why : Refusal} :
    s.byteWritten b = .refused why ↔ s.busDir ≠ .write ∧ why = .byteWrittenOutsideWrite := by
  by_cases hd : s.busDir = .write
  case neg => simp [State.byteWritten_of_ne_write hd, hd, eq_comm]
  case pos =>
    by_cases hi : s.byteIndex = 0
    case pos => simp [State.byteWritten_of_index_zero hd hi, hd]
    case neg =>
      simp [State.byteWritten_of_index_ne_zero hd hi, mapNext_eq_refused, runBytes_write_ne_refused, hd]

/-- A requested byte is refused exactly outside a read transaction (R95). -/
theorem State.byteRequested_eq_refused_iff {s : State} {why : Refusal} :
    s.byteRequested = .refused why ↔ s.busDir ≠ .read ∧ why = .byteRequestedOutsideRead := by
  by_cases hd : s.busDir = .read
  case neg => simp [State.byteRequested_of_ne_read hd, hd, eq_comm]
  case pos => simp [State.byteRequested_of_read hd, runBytes_read_ne_refused, hd]

/-! ### The sequencer's events -/

/-- The end of a settling delay is refused exactly in the phases that armed none (R73). -/
theorem State.settleExpired_eq_refused_iff {s : State} {why : Refusal} :
    s.settleExpired = .refused why ↔
      s.seqPhase ≠ .settleA ∧ s.seqPhase ≠ .settleB ∧ why = .settleNotArmed := by
  by_cases ha : s.seqPhase = .settleA
  case pos => simp [State.settleExpired_of_settleA ha, ha]
  case neg =>
    by_cases hb : s.seqPhase = .settleB
    case pos => simp [State.settleExpired_of_settleB hb, hb]
    case neg => simp [State.settleExpired_of_not_armed ha hb, ha, hb, eq_comm]

/-- The end of channel B's conversion finishes the sequence or pushes, and neither refuses (R75). -/
theorem State.channelBDone_ne_refused (s : State) (v : BitVec 10) (why : Refusal) :
    s.channelBDone v ≠ .refused why := by
  unfold State.channelBDone
  split
  · nofun
  · rw [Ne, mapNext_eq_refused]
    exact s.push_ne_refused s.resA v why

/-- A result is refused exactly in the phases that started no conversion (R76). -/
theorem State.conversionDone_eq_refused_iff {s : State} {v : BitVec 10} {why : Refusal} :
    s.conversionDone v = .refused why ↔
      s.seqPhase ≠ .convA ∧ s.seqPhase ≠ .convB ∧ why = .adcNotStarted := by
  unfold State.conversionDone
  cases s.seqPhase with
  | convA => simp
  | convB => simp [State.channelBDone_ne_refused]
  | idle => simp [eq_comm]
  | settleA => simp [eq_comm]
  | settleB => simp [eq_comm]

/-! ### The Reset event -/

/-- A Reset is refused exactly when the address of its boot record is out of range (R58). -/
theorem State.powerOn_eq_refused_iff {s : State} {r : BootRecord} {why : Refusal} :
    s.powerOn r = .refused why ↔
      ¬(0x03 ≤ r.address.toNat ∧ r.address.toNat ≤ 0x77) ∧ why = .bootRecordInvalid := by
  rw [← addressInRange_iff]
  unfold State.powerOn
  split
  case isTrue hr => simp [hr]
  case isFalse hr => simp [hr, eq_comm]

/-! ### The step -/

/-- Settles O5: a step without an event waits; a step with one is the event's handler, which answers a next state for the
address match, the tick, the edge and the commit step, and for the other five events refuses exactly as its lemma above
says. -/
theorem refusedExactlyOnStrayEvents : Obligations.RefusedExactlyOnStrayEvents := by
  intro s why
  cases hin : s.inbox with
  | nil => simp [step_of_empty hin]
  | cons e rest =>
    rw [step_of_event hin]
    cases e with
    | byteWritten b => simp [State.handle, State.byteWritten_eq_refused_iff]
    | byteRequested => simp [State.handle, State.byteRequested_eq_refused_iff]
    | settleDone => simp [State.handle, State.settleExpired_eq_refused_iff]
    | adcDone v => simp [State.handle, State.conversionDone_eq_refused_iff]
    | reset r => simp [State.handle, State.powerOn_eq_refused_iff]
    | addrMatch d => simp [State.handle]
    | tick => simp [State.handle]
    | edge => simp [State.handle]
    | commitStep => simp [State.handle]

end Sys2Proof.Machine
end

section
/-! The ring buffer's count (R67): the number of slots from `tail` round to `head`, and how a push and a tail advance
move it. -/

namespace Sys2Proof.Machine

/-- A slot index below twice the number of slots, cut back to a slot. -/
theorem add_mod_slots {n i k : Nat} (hi : i < n) (hk : k < n) :
    (i + k) % n = if i + k < n then i + k else i + k - n := by
  split
  case isTrue h => exact Nat.mod_eq_of_lt h
  case isFalse h => rw [Nat.mod_eq_sub_mod (by omega), Nat.mod_eq_of_lt (by omega)]

section
variable {s : State} (hhead : s.head < s.params.slots) (htail : s.tail < s.params.slots)
include hhead htail

/-- The count is the distance from `tail` round to `head`. -/
theorem State.count_eq_iff {k : Nat} (hk : k < s.params.slots) :
    s.count = k ↔ (s.tail + k) % s.params.slots = s.head := by
  rw [add_mod_slots htail hk]
  obtain h | h := Nat.lt_or_ge s.head s.tail
  · rw [s.count_of_lt htail h]
    split
    all_goals omega
  · rw [s.count_of_le hhead h]
    split
    all_goals omega

/-- The slot behind the held samples is `head`. -/
theorem State.slot_count : (s.tail + s.count) % s.params.slots = s.head :=
  (State.count_eq_iff hhead htail (s.count_lt (by omega))).1 rfl

/-- Every held sample lies in a slot other than `head`. -/
theorem State.held_slot_ne_head {k : Nat} (hk : k < s.count) : (s.tail + k) % s.params.slots ≠ s.head := by
  have hlt := s.count_lt (by omega)
  exact fun h => by
    have := (State.count_eq_iff hhead htail (by omega)).2 h
    omega

/-- A buffer with room holds at least one sample less than it has slots. -/
theorem State.count_succ_lt_iff : s.count + 1 < s.params.slots ↔ s.slotAfter s.head ≠ s.tail := by
  unfold State.slotAfter
  have hone : 1 < s.params.slots ∨ s.params.slots = 1 := by omega
  obtain hone | hone := hone
  · rw [add_mod_slots hhead hone]
    obtain h | h := Nat.lt_or_ge s.head s.tail
    · rw [s.count_of_lt htail h]
      split
      all_goals omega
    · rw [s.count_of_le hhead h]
      split
      all_goals omega
  · rw [hone, Nat.mod_one]
    omega

/-- With `head` moved on by one in a buffer with room, one sample more is held. -/
theorem State.count_of_head_advanced {t : State} (hroom : s.slotAfter s.head ≠ s.tail)
    (hparams : t.params = s.params) (hh : t.head = s.slotAfter s.head) (ht : t.tail = s.tail) :
    t.count = s.count + 1 := by
  have hlt := (State.count_succ_lt_iff hhead htail).2 hroom
  have hslot : t.head < t.params.slots := by
    rw [hh, hparams]
    exact Nat.mod_lt _ (by omega)
  rw [State.count_eq_iff hslot (by rw [ht, hparams]; exact htail) (by rw [hparams]; exact hlt), ht, hh, hparams,
    State.slotAfter, ← State.slot_count hhead htail, Nat.mod_add_mod, Nat.add_assoc]

/-- With `tail` moved on by one in a buffer that is not empty, one sample less is held. -/
theorem State.count_of_tail_advanced {t : State} (hheld : s.head ≠ s.tail)
    (hparams : t.params = s.params) (hh : t.head = s.head) (ht : t.tail = s.slotAfter s.tail) :
    t.count + 1 = s.count := by
  have hpos : s.count ≠ 0 := fun h => hheld ((s.count_eq_zero hhead htail).1 h)
  have hlt := s.count_lt (by omega)
  have hslot : t.tail < t.params.slots := by
    rw [ht, hparams]
    exact Nat.mod_lt _ (by omega)
  have hcount : t.count = s.count - 1 := by
    rw [State.count_eq_iff (by rw [hh, hparams]; exact hhead) hslot (by rw [hparams]; omega), ht, hh, hparams,
      State.slotAfter, Nat.mod_add_mod, Nat.add_assoc, Nat.add_sub_cancel' (by omega), State.slot_count hhead htail]
  omega

end

/-- An empty buffer holds no sample, whatever its slots. -/
theorem State.count_of_empty {s : State} (h : s.head = s.tail) : s.count = 0 := by
  rw [State.count, h, Int.sub_self, Int.zero_emod, Int.toNat_zero]

end Sys2Proof.Machine
end

section
/-! The sample cycle in progress (R55, R68), for both layouts at once: when there is one, and when there is none. -/

namespace Sys2Proof.Machine

/-- The command that reads a layout. -/
def SampleLayout.command : SampleLayout → Byte
  | .unpacked => 0x03
  | .packed => 0x04

/-- Inside a sample cycle, for both layouts at once. -/
theorem State.inCycle_iff (s : State) :
    s.inCycle ↔ s.busDir = .read ∧ ∃ l : SampleLayout, s.activeCommand = l.command ∧
      s.byteIndex.toNat % l.cycle ≠ 0 ∧ s.byteIndex.toNat < l.cycle * l.maxSamples := by
  refine and_congr_right fun _ => ⟨?_, ?_⟩
  · rintro (h | h)
    · exact ⟨.unpacked, h⟩
    · exact ⟨.packed, h⟩
  · rintro ⟨l, h⟩
    cases l with
    | unpacked => exact .inl h
    | packed => exact .inr h

/-- A command reads one layout. -/
theorem SampleLayout.command_inj : ∀ {l m : SampleLayout}, l.command = m.command → l = m
  | .unpacked, .unpacked, _ => rfl
  | .packed, .packed, _ => rfl
  | .unpacked, .packed, h => absurd h (by decide)
  | .packed, .unpacked, h => absurd h (by decide)

/-- Inside a cycle of the layout whose command is active. -/
theorem State.inCycle_iff_of_command {s : State} {l : SampleLayout} (hc : s.activeCommand = l.command) :
    s.inCycle ↔ s.busDir = .read ∧ s.byteIndex.toNat % l.cycle ≠ 0 ∧
      s.byteIndex.toNat < l.cycle * l.maxSamples := by
  rw [State.inCycle_iff]
  refine and_congr_right fun _ => ⟨?_, fun h => ⟨l, hc, h⟩⟩
  rintro ⟨m, hm, h⟩
  exact SampleLayout.command_inj (hm.symm.trans hc) ▸ h

/-- Outside positions 1..L * KMAX no cycle is in progress. -/
theorem State.not_inCycle_of_outside {s : State} {l : SampleLayout} (hc : s.activeCommand = l.command)
    (h : s.byteIndex.toNat = 0 ∨ l.cycle * l.maxSamples < s.byteIndex.toNat) : ¬s.inCycle := by
  rw [State.inCycle_iff_of_command hc]
  rintro ⟨-, hmod, hlt⟩
  obtain hzero | hpast := h
  · exact hmod (by rw [hzero, Nat.zero_mod])
  · omega

/-- Outside a read transaction no cycle is in progress. -/
theorem State.not_inCycle_of_ne_read {s : State} (hd : s.busDir ≠ .read) : ¬s.inCycle :=
  fun h => hd h.left

/-- Before the first byte of a transaction no cycle is in progress. -/
theorem State.not_inCycle_of_index_zero {s : State} (hi : s.byteIndex = 0) : ¬s.inCycle := by
  rw [State.inCycle_iff]
  rintro ⟨-, l, -, hmod, -⟩
  rw [hi] at hmod
  exact hmod (Nat.zero_mod _)

/-- A command that reads no samples has no cycle in progress. -/
theorem State.not_inCycle_of_command {s : State} (h3 : s.activeCommand ≠ 3) (h4 : s.activeCommand ≠ 4) :
    ¬s.inCycle := by
  rintro ⟨-, ⟨hc, -⟩ | ⟨hc, -⟩⟩
  · exact h3 hc
  · exact h4 hc

end Sys2Proof.Machine
end

section
/-! The invariant (R23) under each operation of the block: the operations are the only ones that change a state, and a
lemma for each writes out the clauses that it touches; the clauses that it does not touch are those of the state before. -/

namespace Sys2Proof.Machine

/-! ### The ring buffer -/

/-- The sample at `tail` is taken from a buffer that holds one, and stays where `tail` is pinned (R69). -/
theorem State.Inv.advanceTail {s : State} (h : s.Inv) (hheld : s.head ≠ s.tail) (hcycle : ¬s.inCycle) :
    s.advanceTail.Inv := by
  by_cases hm : s.mode = .single
  case pos =>
    have hpinned : s.advanceTail = s := by rw [State.advanceTail, if_pos hm]
    rwa [hpinned]
  case neg =>
    have htail : s.advanceTail.tail = s.slotAfter s.tail := by rw [State.advanceTail, if_neg hm]
    have hcount : s.advanceTail.count + 1 = s.count :=
      State.count_of_tail_advanced h.headSlot h.tailSlot hheld rfl rfl htail
    have hslots : 0 < s.params.slots := Nat.zero_lt_of_lt h.tailSlot
    exact { h with
      tailSlot := by
        rw [htail]
        exact Nat.mod_lt _ hslots
      heldValid := fun k hk => by
        have hslot : (s.advanceTail.tail + k) % s.params.slots = (s.tail + (k + 1)) % s.params.slots := by
          rw [htail, State.slotAfter, Nat.mod_add_mod, Nat.add_assoc, Nat.add_comm 1 k]
        rw [State.advanceTail_params, State.advanceTail_buf, hslot]
        exact h.heldValid (k + 1) (by omega)
      singleCount := fun hs => absurd hs hm
      singleEmpty := fun hs => absurd hs hm
      offEmpty := fun ho => absurd (h.offEmpty ho) hheld
      cycleHeld := fun hc => absurd hc hcycle }

/-- A FIFO reset empties the buffer (R70); it happens outside read transactions only. -/
theorem State.Inv.fifoReset {s : State} (h : s.Inv) (hd : s.busDir ≠ .read) : s.fifoReset.Inv := by
  have hslots : 0 < s.params.slots := Nat.zero_lt_of_lt h.tailSlot
  have hcount : s.fifoReset.count = 0 := State.count_of_empty rfl
  exact { h with
    headSlot := hslots
    tailSlot := hslots
    heldValid := fun k hk => absurd hk (by omega)
    singleCount := fun _ => by omega
    singleEmpty := fun _ _ => rfl
    offEmpty := fun _ => rfl
    cycleHeld := fun hc => absurd hc (State.not_inCycle_of_ne_read hd) }

/-- A push with nothing in flight: a sample with valid = 1 joins the held ones (R65). In Single mode the buffer is empty
before, and in Off mode nothing is pushed. -/
theorem State.Inv.push {s t : State} {a b : BitVec 10} (h : s.Inv) (hidle : s.seqPhase = .idle)
    (hsingle : s.mode = .single → s.head = s.tail) (hoff : s.mode ≠ .off) (hpush : s.push a b = .next t) :
    t.Inv := by
  obtain ⟨-, rfl⟩ | ⟨hroom, -, rfl⟩ := State.push_cases hpush
  case inl => exact { h with }
  case inr =>
    have hslots : 0 < s.params.slots := Nat.zero_lt_of_lt h.tailSlot
    have hcount := State.count_of_head_advanced h.headSlot h.tailSlot hroom
      (t := { s with
        buf := s.buf.write s.head { a := a, b := b, ov := s.overrunCount, valid := true }
        head := s.slotAfter s.head
        overrunCount := 0 }) rfl rfl rfl
    have hpending : s.pendingStart ≠ true := fun hp => h.discardBusy (h.pendingDiscards hp) hidle
    exact { h with
      memoryCanonical := Memory.write_wf _ _ _ h.memoryCanonical
      memoryWithin := Memory.write_within _ _ _ _ h.headSlot h.memoryWithin
      headSlot := Nat.mod_lt _ hslots
      heldValid := fun k hk => by
        obtain hold | rfl : k < s.count ∨ k = s.count := by omega
        · exact (congrArg Sample.valid (Memory.read_write_other _ _ _ _
            (State.held_slot_ne_head h.headSlot h.tailSlot hold))).trans (h.heldValid k hold)
        · show (Memory.read _ ((s.tail + s.count) % s.params.slots)).valid = true
          rw [State.slot_count h.headSlot h.tailSlot, Memory.read_write_same _ _ _ h.memoryCanonical]
      singleCount := fun hs => by
        have hempty := State.count_of_empty (hsingle hs)
        omega
      singleEmpty := fun _ hq => absurd hq fun hq => hq.elim (fun hb => hb.left hidle) hpending
      offEmpty := fun ho => absurd ho hoff
      cycleHeld := fun _ _ => hroom }

/-! ### The conversion sequencer -/

/-- A start request, which comes in no Off mode, and in Single mode with the buffer empty (R72, R84). -/
theorem State.Inv.requestStart {s : State} (h : s.Inv) (hsingle : s.mode = .single → s.head = s.tail)
    (hoff : s.mode ≠ .off) : s.requestStart.Inv := by
  obtain ⟨-, hr⟩ | ⟨hbusy, hd, hr⟩ | ⟨hbusy, hd, hr⟩ := s.requestStart_cases
  all_goals rw [hr]
  · exact { h with
      discardBusy := fun _ => nofun
      singleEmpty := fun hs _ => hsingle hs
      offQuiet := fun ho => absurd ho hoff }
  · exact { h with
      pendingDiscards := fun _ => hd
      singleEmpty := fun hs _ => hsingle hs
      offQuiet := fun ho => absurd ho hoff }
  · exact { h with }

/-- The end of a sequence, with or without a pending start to take (R77). -/
theorem State.Inv.finish {s : State} (h : s.Inv) : s.finish.Inv := by
  obtain ⟨hp, hf⟩ | ⟨hp, hf⟩ := s.finish_cases
  all_goals rw [hf]
  · exact { h with
      pendingDiscards := nofun
      discardBusy := nofun
      singleEmpty := fun hs _ => h.singleEmpty hs (.inr hp)
      offQuiet := fun ho => absurd hp (Bool.eq_false_iff.1 (h.offQuiet ho).left) }
  · have hpending : s.pendingStart ≠ true := Bool.eq_false_iff.1 hp
    exact { h with
      pendingDiscards := fun ht => absurd ht hpending
      discardBusy := nofun
      singleEmpty := fun _ hq => absurd hq fun hq => hq.elim (fun hb => hb.left rfl) hpending
      offQuiet := fun _ => ⟨hp, fun hb => absurd rfl hb⟩ }

/-- A change from one phase in flight to another (R73, R74). -/
theorem State.Inv.nextPhase {s : State} (h : s.Inv) (hbusy : s.seqPhase ≠ .idle) {q : SeqPhase} (hq : q ≠ .idle)
    (v : BitVec 10) (outputs : List Output) :
    State.Inv { s with seqPhase := q, resA := v, trace := outputs } :=
  { h with
    discardBusy := fun _ => hq
    singleEmpty := fun hs hp => h.singleEmpty hs (hp.imp_left fun hc => ⟨hbusy, hc.right⟩)
    offQuiet := fun ho => ⟨(h.offQuiet ho).left, fun _ => (h.offQuiet ho).right hbusy⟩ }

/-- The end of a settling delay (R73). -/
theorem State.Inv.settleExpired {s t : State} (h : s.Inv) (hs : s.settleExpired = .next t) : t.Inv := by
  obtain ⟨hp, rfl⟩ | ⟨hp, rfl⟩ := State.settleExpired_cases hs
  all_goals exact h.nextPhase (by rw [hp]; nofun) (by nofun) _ _

/-- A push reads and writes the registers of the buffer only: the sequencer's stay as they are set (R65). -/
theorem State.push_of_sequencer_set {s u : State} {a b : BitVec 10} (h : s.push a b = .next u) (d : Bool)
    (q : SeqPhase) :
    State.push { s with discardInFlight := d, seqPhase := q } a b =
      .next { u with discardInFlight := d, seqPhase := q } := by
  obtain ⟨hfull, rfl⟩ | ⟨hroom, hhead, rfl⟩ := State.push_cases h
  · exact State.push_of_full (s := { s with discardInFlight := d, seqPhase := q }) hfull a b
  · exact State.push_of_room (s := { s with discardInFlight := d, seqPhase := q }) hroom hhead a b

/-- A push leaves the pending start to the sequencer. -/
theorem State.push_pendingStart {s u : State} {a b : BitVec 10} (h : s.push a b = .next u) :
    u.pendingStart = s.pendingStart := by
  obtain ⟨-, rfl⟩ | ⟨-, -, rfl⟩ := State.push_cases h
  all_goals rfl

/-- A finish with no start pending ends idle (R77). -/
theorem State.finish_of_not_pending {s : State} (hp : s.pendingStart = false) :
    s.finish = { s with discardInFlight := false, seqPhase := .idle } :=
  if_neg (Bool.eq_false_iff.1 hp)

/-- A conversion result (R74, R75). The pushed sample joins the buffer of the finished sequence: finishing touches no
register of the buffer, so the two orders agree. -/
theorem State.Inv.conversionDone {s t : State} {v : BitVec 10} (h : s.Inv) (hs : s.conversionDone v = .next t) :
    t.Inv := by
  obtain ⟨-, -, rfl⟩ | ⟨hp, -, rfl⟩ | ⟨-, -, rfl⟩ | ⟨hp, hd, u, hpush, rfl⟩ := State.conversionDone_cases hs
  · exact State.Inv.finish { h with }
  · exact h.nextPhase (by rw [hp]; nofun) (by nofun) _ _
  · exact h.finish
  · have hbusy : s.seqPhase ≠ .idle := by rw [hp]; nofun
    have hkept : s.discardInFlight ≠ true := Bool.eq_false_iff.1 hd
    have hpending : s.pendingStart ≠ true := fun hpend => hkept (h.pendingDiscards hpend)
    have hsingle : s.mode = .single → s.head = s.tail := fun hm => h.singleEmpty hm (.inl ⟨hbusy, hd⟩)
    have hoff : s.mode ≠ .off := fun ho => hkept ((h.offQuiet ho).right hbusy)
    have hnone : s.pendingStart = false := Bool.eq_false_iff.2 hpending
    have hidle : State.Inv { s with discardInFlight := false, seqPhase := .idle } :=
      State.finish_of_not_pending hnone ▸ h.finish
    have hpushed := hidle.push rfl hsingle hoff (State.push_of_sequencer_set hpush false .idle)
    rw [State.finish_of_not_pending (s := u.autoclearRun) ((State.push_pendingStart hpush).trans hnone)]
    exact { hpushed with }

/-! ### The sampling-mode machine -/

/-- The mark for discard that a control write leaves: a conversion in flight is discarded, and no start is pending
(R78, R81). -/
theorem State.Inv.latchControl {s : State} (h : s.Inv) (b : Byte) : (s.latchControl b).Inv := by
  have hmark : (s.busy || s.discardInFlight) = true ↔ s.seqPhase ≠ .idle := by
    rw [Bool.or_eq_true, State.busy, bne_iff_ne]
    exact or_iff_left_of_imp h.discardBusy
  exact { h with
    pendingDiscards := nofun
    discardBusy := hmark.1
    singleEmpty := fun _ hq => absurd hq fun hq =>
      hq.elim (fun hb => Bool.eq_false_iff.1 hb.right (hmark.2 hb.left)) (nomatch ·)
    offQuiet := fun _ => ⟨rfl, hmark.2⟩ }

/-- A control write, which comes in a write transaction (R81, R83..R86). -/
theorem State.Inv.controlWrite {s : State} (h : s.Inv) (hd : s.busDir ≠ .read) (b : Byte) :
    (s.controlWrite b).Inv := by
  have hlatch := h.latchControl b
  have hreset := hlatch.fifoReset hd
  have hdiscard : s.seqPhase ≠ .idle → (s.latchControl b).discardInFlight = true := fun hbusy =>
    Bool.or_eq_true_iff.2 (.inl (bne_iff_ne.2 hbusy))
  obtain ⟨-, hc⟩ | ⟨-, -, hc⟩ | ⟨-, -, hc⟩ | ⟨-, -, hc⟩ := s.controlWrite_cases b
  all_goals rw [hc]
  case inl =>
    exact { hreset with
      countdownLive := nofun
      singleCount := nofun
      singleEmpty := nofun
      offEmpty := fun _ => rfl
      offQuiet := fun _ => ⟨rfl, hdiscard⟩ }
  case inr.inl =>
    have hentry : State.Inv { (s.latchControl b).fifoReset with mode := .single } := { hreset with
      countdownLive := nofun
      singleCount := fun _ => (State.count_of_empty (s := (s.latchControl b).fifoReset) rfl).trans_le (Nat.zero_le 1)
      singleEmpty := fun _ _ => rfl
      offEmpty := nofun
      offQuiet := nofun }
    exact hentry.requestStart (fun _ => rfl) (by nofun)
  case inr.inr.inl =>
    exact { hlatch with
      countdownLive := nofun
      singleCount := nofun
      singleEmpty := nofun
      offEmpty := nofun
      offQuiet := nofun }
  case inr.inr.inr =>
    exact { hlatch with
      countdownLive := fun _ => (Nat.le_succ 1).trans h.periodMin
      singleCount := nofun
      singleEmpty := nofun
      offEmpty := nofun
      offQuiet := nofun }

/-- A tick (R87): a countdown above 1 stays above 0, and an expiry reloads it with the period. -/
theorem State.Inv.tick {s : State} (h : s.Inv) : s.tick.Inv := by
  obtain ⟨-, ht⟩ | ⟨hm, hc, ht⟩ | ⟨hm, -, ht⟩ := s.tick_cases
  all_goals rw [ht]
  · exact h
  · have hlive := h.countdownLive hm
    exact { h with
      countdownLive := fun _ => by
        show 1 ≤ (s.currentCountdown - 1).toNat
        bv_omega }
  · have hreload : State.Inv { s with
        currentCountdown := s.targetPeriod
        cumulativeTicks := s.cumulativeTicks + 1
        auxOut := !s.auxOut } :=
      { h with countdownLive := fun _ => (Nat.le_succ 1).trans h.periodMin }
    exact hreload.requestStart (fun hs => nomatch hm.symm.trans hs) (fun ho => nomatch hm.symm.trans ho)

/-- A trigger edge (R88). -/
theorem State.Inv.edge {s : State} (h : s.Inv) : s.edge.Inv := by
  obtain ⟨-, he⟩ | ⟨hm, he⟩ := s.edge_cases
  all_goals rw [he]
  · exact h
  · exact h.requestStart (fun hs => nomatch hm.symm.trans hs) (fun ho => nomatch hm.symm.trans ho)

/-! ### Settings and reset -/

/-- A commit step applies a staged address, which is legal (R60). -/
theorem State.Inv.commit {s : State} (h : s.Inv) : s.commit.Inv := by
  obtain ⟨-, hc⟩ | ⟨-, hc⟩ := s.commit_cases
  all_goals rw [hc]
  · exact h
  · exact { h with activeLegal := h.stagedLegal }

/-- An address byte in range is a legal address (R50). -/
theorem addressOfByte_legal {b : Byte} (h : addressInRange b = true) :
    0x03 ≤ (addressOfByte b).toNat ∧ (addressOfByte b).toNat ≤ 0x77 := by
  rw [addressInRange_iff] at h
  rw [addressOfByte, toNat_extractLsb'_low]
  omega

/-- The reset state of valid parameters and a valid record (R138, R58). -/
theorem State.resetWith_inv {p : Params} {r : BootRecord} (hp : p.valid = true)
    (hr : addressInRange r.address = true) : (State.resetWith p r).Inv := by
  have hbounds : (2 ≤ p.slots ∧ p.slots ≤ 256) ∧ 2 ≤ p.periodReset.toNat := by
    simpa [Params.valid] using hp
  obtain ⟨⟨hslots, -⟩, hperiod⟩ := hbounds
  have hempty : (State.resetWith p r).count = 0 := State.count_of_empty rfl
  exact {
    paramsValid := hp
    memoryCanonical := rfl
    memoryWithin := rfl
    headSlot := Nat.zero_lt_of_lt hslots
    tailSlot := Nat.zero_lt_of_lt hslots
    heldValid := fun k hk => absurd hk (by omega)
    periodMin := hperiod
    countdownLive := nofun
    pendingDiscards := nofun
    discardBusy := nofun
    singleCount := nofun
    singleEmpty := nofun
    offEmpty := fun _ => rfl
    offQuiet := fun _ => ⟨rfl, fun hb => absurd rfl hb⟩
    stagedLegal := addressOfByte_legal hr
    activeLegal := addressOfByte_legal hr
    cycleHeld := fun hc => absurd hc (State.not_inCycle_of_ne_read (by nofun)) }

/-- A Reset event (R138). -/
theorem State.Inv.powerOn {s t : State} {r : BootRecord} (h : s.Inv) (hs : s.powerOn r = .next t) : t.Inv := by
  obtain ⟨hr, rfl⟩ := State.powerOn_cases hs
  exact { State.resetWith_inv h.paramsValid hr with }

end Sys2Proof.Machine
end

section
/-! The invariant (R23) under the dispatcher's events (R93..R96) and under the step. -/

namespace Sys2Proof.Machine

/-! ### The dispatcher -/

/-- An address match leaves no cycle in progress (R93). -/
theorem State.Inv.matchAddress {s : State} (h : s.Inv) (d : Dir) : (s.matchAddress d).Inv :=
  { h with cycleHeld := fun hc => absurd hc (State.not_inCycle_of_index_zero rfl) }

/-- The clamped period is at least 2 (R43). -/
theorem two_le_toNat_clampPeriod (v : BitVec 16) : 2 ≤ (clampPeriod v).toNat := by
  unfold clampPeriod
  split
  case isTrue => decide
  case isFalse h => omega

/-- Every write rule, in a write transaction (R97). -/
theorem State.Inv.writeEffect {s t : State} {b : Byte} (h : s.Inv) (hd : s.busDir ≠ .read)
    (he : WriteEffect s b t) : t.Inv := by
  cases he with
  | ignored => exact h
  | control => exact h.controlWrite hd b
  | periodLow => exact { h with }
  | periodHigh => exact { h with periodMin := two_le_toNat_clampPeriod _ }
  | address _ _ hr => exact { h with stagedLegal := addressOfByte_legal hr }
  | trim => exact { h with }
  | arm => exact { h with }
  | request => exact { h with }

/-- Everything a start request leaves alone (R72). -/
theorem State.requestStart_frame (s : State) : ∃ phase pending overruns outputs,
    s.requestStart = { s with
      seqPhase := phase, pendingStart := pending, overrunCount := overruns, trace := outputs } := by
  obtain ⟨-, h⟩ | ⟨-, -, h⟩ | ⟨-, -, h⟩ := s.requestStart_cases
  all_goals exact ⟨_, _, _, _, h⟩

@[simp] theorem State.requestStart_busDir (s : State) : s.requestStart.busDir = s.busDir := by
  obtain ⟨_, _, _, _, h⟩ := s.requestStart_frame
  rw [h]

/-- A control write leaves the bus direction alone, whatever mode it enters. -/
@[simp] theorem State.controlWrite_busDir (s : State) (b : Byte) : (s.controlWrite b).busDir = s.busDir := by
  obtain ⟨-, h⟩ | ⟨-, -, h⟩ | ⟨-, -, h⟩ | ⟨-, -, h⟩ := s.controlWrite_cases b
  all_goals simp [h, State.singleEntry]

/-- No write rule changes the bus direction. -/
theorem WriteEffect.busDir_eq {s t : State} {b : Byte} (h : WriteEffect s b t) : t.busDir = s.busDir := by
  cases h
  case control => exact s.controlWrite_busDir b
  all_goals rfl

/-- The index advances outside a read transaction, where no cycle is in progress (R96). -/
theorem State.Inv.advanceIndex {s : State} (h : s.Inv) (hd : s.busDir ≠ .read) : s.advanceIndex.Inv :=
  { h with cycleHeld := fun hc => absurd hc (State.not_inCycle_of_ne_read hd) }

/-- A written byte (R94). -/
theorem State.Inv.byteWritten {s t : State} {b : Byte} (h : s.Inv) (hs : s.byteWritten b = .next t) : t.Inv := by
  obtain ⟨hw, ⟨-, rfl⟩ | ⟨-, u, heffect, rfl⟩⟩ := State.byteWritten_cases hs
  all_goals have hd : s.busDir ≠ .read := by rw [hw]; nofun
  · exact State.Inv.advanceIndex
      { h with cycleHeld := fun hc => absurd hc (State.not_inCycle_of_ne_read hd) } hd
  · exact (h.writeEffect hd heffect).advanceIndex (heffect.busDir_eq ▸ hd)

/-- The advanced index as a number (R96). -/
theorem toNat_indexBump (i : Byte) : (indexBump i).toNat = min (i.toNat + 1) 255 := by
  rw [indexBump, BitVec.toNat_ofNat]
  omega

/-- At a later position of a cycle the request found the cycle in progress (R55, R68). -/
theorem State.inCycle_of_later {s : State} {l : SampleLayout} (hd : s.busDir = .read)
    (hc : s.activeCommand = l.command) (hi : 1 ≤ s.advanceIndex.byteIndex.toNat)
    (hmax : s.advanceIndex.byteIndex.toNat ≤ l.cycle * l.maxSamples)
    (hpos : l.position s.advanceIndex.byteIndex.toNat ≠ 1) : s.inCycle := by
  rw [Ne, SampleLayout.position_eq_one_iff (by omega)] at hpos
  rw [State.inCycle_iff_of_command hc]
  rw [State.advanceIndex_byteIndex, toNat_indexBump] at hi hmax hpos
  refine ⟨hd, ?_⟩
  cases l
  all_goals
    simp only [SampleLayout.cycle, SampleLayout.maxSamples, Config.unpackedMax, Config.packedMax] at hmax hpos ⊢
    omega

/-- A requested byte of a data command: a cycle that the latch did not find empty is in progress only with a sample
held, which is taken after the cycle's last byte, when none is in progress any more (R68, R69). -/
theorem State.Inv.peek {s t : State} {l : SampleLayout} (h : s.Inv) (hd : s.busDir = .read)
    (hc : s.activeCommand = l.command) (hs : s.advanceIndex.peek l = .next t) : t.Inv := by
  obtain ⟨hout, rfl⟩ | ⟨-, -, -, hserve⟩ | ⟨hi, hmax, hpos, hserve⟩ := State.peek_cases hs
  case inl =>
    have hnot := State.not_inCycle_of_outside (s := s.advanceIndex) hc (hout.imp_left Nat.lt_one_iff.1)
    exact { h with cycleHeld := fun hin => absurd hin hnot }
  case inr.inl =>
    obtain ⟨hlatched, rfl⟩ | ⟨-, -, -, rfl⟩ | ⟨-, -, hlast, -⟩ := State.serve_cases hserve
    · exact { h with cycleHeld := fun _ he => absurd hlatched (Bool.eq_false_iff.1 he) }
    · exact { h with cycleHeld := fun _ he => ne_of_beq_false he }
    · cases l <;> cases hlast
  case inr.inr =>
    have hin := State.inCycle_of_later hd hc hi hmax hpos
    obtain ⟨hlatched, rfl⟩ | ⟨he, -, -, rfl⟩ | ⟨he, -, hlast, rfl⟩ := State.serve_cases hserve
    · exact { h with cycleHeld := fun _ he => absurd hlatched (Bool.eq_false_iff.1 he) }
    · exact { h with cycleHeld := fun _ _ => h.cycleHeld hin he }
    · have hnot : ¬s.advanceIndex.inCycle := by
        rw [State.inCycle_iff_of_command (s := s.advanceIndex) hc]
        rintro ⟨-, hmod, -⟩
        rw [SampleLayout.position] at hlast
        cases l
        all_goals
          simp only [SampleLayout.cycle] at hmod hlast
          omega
      have hindex : s.advanceIndex.Inv := { h with cycleHeld := fun hin => absurd hin hnot }
      exact { hindex.advanceTail (h.cycleHeld hin he) hnot with }

/-- A requested byte (R95). -/
theorem State.Inv.byteRequested {s t : State} (h : s.Inv) (hs : s.byteRequested = .next t) : t.Inv := by
  obtain ⟨hd, heffect⟩ := State.byteRequested_cases hs
  cases heffect with
  | served b h3 h4 => exact { h with cycleHeld := fun hc => absurd hc (State.not_inCycle_of_command h3 h4) }
  | snapshot b h6 =>
    have hnot : ¬s.advanceIndex.inCycle :=
      State.not_inCycle_of_command (by rw [h6]; decide) (by rw [h6]; decide)
    exact { h with cycleHeld := fun hc => absurd hc hnot }
  | unpacked _ hc hpeek => exact h.peek (l := .unpacked) hd hc hpeek
  | packed _ hc hpeek => exact h.peek (l := .packed) hd hc hpeek

/-! ### The step -/

/-- Every handler keeps the invariant. -/
theorem State.Inv.handle {s t : State} {e : Event} (h : s.Inv) (hs : s.handle e = .next t) : t.Inv := by
  cases e with
  | addrMatch d => cases hs; exact h.matchAddress d
  | byteWritten b => exact h.byteWritten hs
  | byteRequested => exact h.byteRequested hs
  | tick => cases hs; exact h.tick
  | edge => cases hs; exact h.edge
  | settleDone => exact h.settleExpired hs
  | adcDone v => exact h.conversionDone hs
  | commitStep => cases hs; exact h.commit
  | reset r => exact h.powerOn hs

/-- Settles O3: a step waits or hands the next event, taken from the inbox, to its handler, and every handler keeps the
invariant. -/
theorem everyStepKeepsInvariant : Obligations.EveryStepKeepsInvariant := by
  intro s t h hstep
  obtain ⟨-, rfl⟩ | ⟨e, rest, -, hhandle⟩ := step_cases hstep
  · exact h
  · have htaken : State.Inv { s with inbox := rest } := { h with }
    exact htaken.handle hhandle

end Sys2Proof.Machine
end

section
/-! The reset states meet the invariant (R138), and a state that meets it never faults (R26, R123). -/

namespace Sys2Proof.Machine

/-! ### The reset states -/

/-- The parameters of `State.reset` meet the constraints of R7, whatever its opaque values are. -/
theorem config_params_valid : Config.params.valid = true := by
  have hperiod : 2 ≤ Config.params.periodReset.toNat := by
    show 2 ≤ (BitVec.ofNat 16 (2 + Config.periodResetAboveMin.val)).toNat
    have hlt := Config.periodResetAboveMin.isLt
    rw [BitVec.toNat_ofNat]
    omega
  rw [Params.valid, Bool.and_eq_true]
  exact ⟨rfl, decide_eq_true hperiod⟩

/-- The boot record of `State.reset` is one that R58 accepts, whatever its opaque values are. -/
theorem config_bootRecord_inRange : addressInRange Config.bootRecord.address = true := by
  have hlt := Config.bootAddressAboveMin.isLt
  have haddress : Config.bootRecord.address.toNat = 3 + Config.bootAddressAboveMin.val := by
    show (BitVec.ofNat 8 (0x03 + Config.bootAddressAboveMin.val)).toNat = _
    rw [BitVec.toNat_ofNat]
    omega
  rw [addressInRange_iff]
  omega

/-- Settles O2: the reset state of valid parameters and a valid record meets the invariant, and the model's own are
valid. -/
theorem resetStateMeetsInvariant : Obligations.ResetStateMeetsInvariant :=
  ⟨State.resetWith_inv config_params_valid config_bootRecord_inRange, fun _ _ => State.resetWith_inv⟩

/-! ### Faults -/

/-- The bytes of a write instruction never fault (R97). -/
theorem State.byteWritten_ne_fault (s : State) (b : Byte) (f : Fault) : s.byteWritten b ≠ .fault f := by
  obtain ⟨t, hrun, -⟩ := runBytes_write s b
  unfold State.byteWritten
  split
  · split
    · nofun
    · rw [hrun]
      nofun
  · nofun

/-- With `tail` a slot a requested byte never faults (R26, R68). -/
theorem State.byteRequested_ne_fault {s : State} (ht : s.tail < s.params.slots) (f : Fault) :
    s.byteRequested ≠ .fault f := by
  obtain ⟨t, hrun, -⟩ := runBytes_read_completes s.advanceIndex ht
  by_cases hd : s.busDir = .read
  · rw [State.byteRequested_of_read hd, hrun]
    nofun
  · rw [State.byteRequested_of_ne_read hd]
    nofun

/-- The end of a settling delay never faults (R73). -/
theorem State.settleExpired_ne_fault (s : State) (f : Fault) : s.settleExpired ≠ .fault f := by
  unfold State.settleExpired
  split
  all_goals nofun

/-- With `head` a slot a conversion result never faults (R26, R75). -/
theorem State.conversionDone_ne_fault {s : State} (hh : s.head < s.params.slots) (v : BitVec 10) (f : Fault) :
    s.conversionDone v ≠ .fault f := by
  obtain ⟨t, hpush⟩ := s.push_completes s.resA v hh
  unfold State.conversionDone State.channelBDone
  rw [hpush]
  split
  case h_2 =>
    split
    all_goals nofun
  all_goals nofun

/-- Settles O4: only the push and the peek can fault, where `head` or `tail` is no slot, and the invariant says that
both are. -/
theorem safeStateNeverFaults : Obligations.SafeStateNeverFaults := by
  intro s f h
  cases hin : s.inbox with
  | nil => rw [step_of_empty hin]; nofun
  | cons e rest =>
    rw [step_of_event hin]
    cases e with
    | byteWritten b => exact State.byteWritten_ne_fault _ b f
    | byteRequested => exact State.byteRequested_ne_fault (s := { s with inbox := rest }) h.tailSlot f
    | settleDone => exact State.settleExpired_ne_fault _ f
    | adcDone v => exact State.conversionDone_ne_fault (s := { s with inbox := rest }) h.headSlot v f
    | reset r =>
      show State.powerOn _ r ≠ _
      unfold State.powerOn
      split
      all_goals nofun
    | addrMatch d => nofun
    | tick => nofun
    | edge => nofun
    | commitStep => nofun

end Sys2Proof.Machine
end

section
/-! The decoder against the encoder (R57): the table's rows invert `encode`, and a step runs what it decodes. -/

namespace Sys2Proof

open Laws.RowSelectsKey (commandRow_of_codeIn selectedBy selectedBy_write selectedBy_read)

/-! ### Decoding an encoding -/

/-- A well-formed instruction is read from its own bytes, whatever follows them: its command selects the row that builds
it. -/
theorem decode_encode (rest : List Byte) : ∀ i : Instr, i.wellFormed = true → decode (encode i ++ rest) = .ok (i, rest)
  | .c0wControl _, _ => decode_write (c := 0x00) rest rfl
  | .c1wPeriod _, _ => decode_write (c := 0x01) rest rfl
  | .c2wCount _, _ => decode_write (c := 0x02) rest rfl
  | .c3wUnpacked _, _ => decode_write (c := 0x03) rest rfl
  | .c4wPacked _, _ => decode_write (c := 0x04) rest rfl
  | .c5wAddrStage _, _ => decode_write (c := 0x05) rest rfl
  | .c6wTicks _, _ => decode_write (c := 0x06) rest rfl
  | .c7wIdent _, _ => decode_write (c := 0x07) rest rfl
  | .c8wTrim _, _ => decode_write (c := 0x08) rest rfl
  | .c9wCommit _, _ => decode_write (c := 0x09) rest rfl
  | .c0rControl, _ => decode_read (c := 0x00) rest rfl
  | .c1rPeriod, _ => decode_read (c := 0x01) rest rfl
  | .c2rCount, _ => decode_read (c := 0x02) rest rfl
  | .c3rUnpacked, _ => decode_read (c := 0x03) rest rfl
  | .c4rPacked, _ => decode_read (c := 0x04) rest rfl
  | .c5rAddrStage, _ => decode_read (c := 0x05) rest rfl
  | .c6rTicks, _ => decode_read (c := 0x06) rest rfl
  | .c7rIdent, _ => decode_read (c := 0x07) rest rfl
  | .c8rTrim, _ => decode_read (c := 0x08) rest rfl
  | .c9rCommit, _ => decode_read (c := 0x09) rest rfl
  | .cxw10to11 c _, h =>
    have ⟨hrow, _⟩ := commandRow_of_codeIn c
    decode_write rest (by rw [hrow h]; rfl)
  | .cxw12to15 c _, h =>
    have ⟨_, hrow, _⟩ := commandRow_of_codeIn c
    decode_write rest (by rw [hrow h]; rfl)
  | .cxw16to31 c _, h =>
    have ⟨_, _, hrow, _⟩ := commandRow_of_codeIn c
    decode_write rest (by rw [hrow h]; rfl)
  | .cxw32to63 c _, h =>
    have ⟨_, _, _, hrow, _⟩ := commandRow_of_codeIn c
    decode_write rest (by rw [hrow h]; rfl)
  | .cxw64to127 c _, h =>
    have ⟨_, _, _, _, hrow, _⟩ := commandRow_of_codeIn c
    decode_write rest (by rw [hrow h]; rfl)
  | .cxw128to255 c _, h =>
    have ⟨_, _, _, _, _, hrow⟩ := commandRow_of_codeIn c
    decode_write rest (by rw [hrow h]; rfl)
  | .cxr10to11 c, h =>
    have ⟨hrow, _⟩ := commandRow_of_codeIn c
    decode_read rest (by rw [hrow h]; rfl)
  | .cxr12to15 c, h =>
    have ⟨_, hrow, _⟩ := commandRow_of_codeIn c
    decode_read rest (by rw [hrow h]; rfl)
  | .cxr16to31 c, h =>
    have ⟨_, _, hrow, _⟩ := commandRow_of_codeIn c
    decode_read rest (by rw [hrow h]; rfl)
  | .cxr32to63 c, h =>
    have ⟨_, _, _, hrow, _⟩ := commandRow_of_codeIn c
    decode_read rest (by rw [hrow h]; rfl)
  | .cxr64to127 c, h =>
    have ⟨_, _, _, _, hrow, _⟩ := commandRow_of_codeIn c
    decode_read rest (by rw [hrow h]; rfl)
  | .cxr128to255 c, h =>
    have ⟨_, _, _, _, _, hrow⟩ := commandRow_of_codeIn c
    decode_read rest (by rw [hrow h]; rfl)

/-! ### Encoding what was decoded -/

/-- What a write row builds is encoded by the command, the direction bit 0 and the data byte. -/
theorem encode_of_writeRow {c b : Byte} {i : Instr}
    (h : (opcodeRows[commandRow c]?).bind (fun r => r.buildWrite c b) = some i) : encode i = [c, 0x00, b] := by
  obtain hc | hc := command_cases c
  case inl =>
    obtain rfl | rfl | rfl | rfl | rfl | rfl | rfl | rfl | rfl | rfl := hc
    all_goals
      cases h
      rfl
  case inr =>
    obtain ⟨-, hrow⟩ | ⟨-, hrow⟩ | ⟨-, hrow⟩ | ⟨-, hrow⟩ | ⟨-, hrow⟩ | ⟨-, hrow⟩ := hc
    all_goals
      rw [hrow] at h
      cases h
      rfl

/-- What a read row builds is encoded by the command and the direction bit 1. -/
theorem encode_of_readRow {c : Byte} {i : Instr}
    (h : (opcodeRows[16 + commandRow c]?).bind (fun r => r.buildRead c) = some i) : encode i = [c, 0x01] := by
  obtain hc | hc := command_cases c
  case inl =>
    obtain rfl | rfl | rfl | rfl | rfl | rfl | rfl | rfl | rfl | rfl := hc
    all_goals
      cases h
      rfl
  case inr =>
    obtain ⟨-, hrow⟩ | ⟨-, hrow⟩ | ⟨-, hrow⟩ | ⟨-, hrow⟩ | ⟨-, hrow⟩ | ⟨-, hrow⟩ := hc
    all_goals
      rw [hrow] at h
      cases h
      rfl

/-- Without a reserved bit the key's second byte is the direction. -/
theorem byte_of_high_bits_clear {hi : Byte} (h : hi.extractLsb' 1 7 = 0) : hi = 0x00 ∨ hi = 0x01 := by
  revert hi
  decide

/-- A key with a reserved bit set is no instruction. -/
theorem decode_of_reserved_bits {c hi : Byte} {bytes : List Byte} (h : hi.extractLsb' 1 7 ≠ 0) :
    decode (c :: hi :: bytes) = .error .reservedKeyBits :=
  if_neg h

/-- A write key without its data byte is no instruction. -/
theorem decode_write_truncated (c : Byte) : decode [c, 0x00] = .error .missingDataByte := by
  obtain ⟨i, -, hrow⟩ := Machine.exists_writeRow_instr c 0x00
  obtain ⟨r, hr, hb⟩ := Option.bind_eq_some_iff.1 hrow
  have hk : opcodeKey (BitVec.extractLsb' 0 1 (0x00 : Byte)) c = opcodeKey 0#1 c := rfl
  unfold decode
  simp only
  rw [if_pos (by decide), hk, rowOf_write, hr]
  unfold OpcodeRow.buildWrite at hb
  cases hf : r.form with
  | write build => simp only [hf]
  | read build => rw [hf] at hb; cases hb

/-- What was read from the front of a byte string is well formed, and the string begins with its encoding. -/
theorem eq_encode_of_decode {i : Instr} {bytes rest : List Byte} (h : decode bytes = .ok (i, rest)) :
    i.wellFormed = true ∧ bytes = encode i ++ rest := by
  match bytes with
  | [] => cases h
  | [_] => cases h
  | c :: hi :: more =>
    by_cases hhi : hi.extractLsb' 1 7 = 0
    case neg =>
      rw [decode_of_reserved_bits hhi] at h
      cases h
    case pos =>
      obtain rfl | rfl := byte_of_high_bits_clear hhi
      case inl =>
        cases more with
        | nil =>
          rw [decode_write_truncated] at h
          cases h
        | cons b more =>
          obtain ⟨j, hwf, hrow⟩ := Machine.exists_writeRow_instr c b
          rw [decode_write more hrow] at h
          cases h
          exact ⟨hwf, by rw [encode_of_writeRow hrow]; rfl⟩
      case inr =>
        obtain ⟨j, hwf, hrow⟩ := Machine.exists_readRow_instr c
        rw [decode_read more hrow] at h
        cases h
        exact ⟨hwf, by rw [encode_of_readRow hrow]; rfl⟩

/-- Settles O13: the table's rows and `encode` invert each other, in both directions. -/
theorem decodeEncodeInverse : Obligations.DecodeEncodeInverse := by
  intro i bytes rest
  refine ⟨eq_encode_of_decode, ?_⟩
  rintro ⟨hwf, rfl⟩
  exact decode_encode rest i hwf

/-! ### The table's keys and words -/

/-- Counting the places of the elements with a property is counting the elements. -/
theorem length_filter_range {α : Type} (p : α → Bool) (l : List α) :
    ((List.range l.length).filter fun k => (l[k]?).any p).length = (l.filter p).length := by
  induction l with
  | nil => rfl
  | cons a l ih =>
    simp only [← List.countP_eq_length_filter] at ih ⊢
    rw [List.length_cons, List.range_succ_eq_map, List.countP_cons, List.countP_map, List.countP_cons, ← ih]
    rfl

/-- The rows that select a key are as many as their places. -/
theorem rowsSelecting_eq_length (key : BitVec 9) : rowsSelecting key = (selectedBy key).length :=
  (length_filter_range (fun r : OpcodeRow => r.selects key) opcodeRows).symm

/-- Every key is a direction bit over a command. -/
theorem exists_opcodeKey (key : BitVec 9) : ∃ c : Byte, key = opcodeKey 0#1 c ∨ key = opcodeKey 1#1 c := by
  have hkey : key = opcodeKey (key.extractLsb' 8 1) (key.extractLsb' 0 8) := by
    revert key
    decide
  obtain hd | hd := BitVec.eq_zero_or_eq_one (key.extractLsb' 8 1)
  · exact ⟨_, .inl (hd ▸ hkey)⟩
  · exact ⟨_, .inr (hd ▸ hkey)⟩

/-- Settles O14: a key is a direction over a command, which selects the place of one row. -/
theorem everyKeyHasOneRow : Obligations.EveryKeyHasOneRow := by
  refine ⟨rfl, fun key => ?_⟩
  rw [rowsSelecting_eq_length]
  obtain ⟨c, rfl | rfl⟩ := exists_opcodeKey key
  · rw [selectedBy_write, List.length_singleton]
  · rw [selectedBy_read, List.length_singleton]

/-- A table word whose bytes are the encoding of a well-formed instruction, and perhaps more, decodes to it. -/
theorem decodeTableWord_of_encode {nbits w : Nat} {i : Instr} (rest : List Byte) (hwf : i.wellFormed = true)
    (h : bytesOfWord (w % 2 ^ nbits) = encode i ++ rest) : decodeTableWord nbits w = some i := by
  rw [decodeTableWord, h, decode_encode rest i hwf]

/-- Settles O15: each word's bytes are the encoding of its row's instruction; the last word has a reserved bit set. -/
theorem tableWordsDecode : Obligations.TableWordsDecode := by
  refine ⟨decodeTableWord_of_encode [] rfl rfl, decodeTableWord_of_encode [0x00] rfl rfl,
    decodeTableWord_of_encode [] rfl rfl, decodeTableWord_of_encode [0x00] rfl rfl,
    decodeTableWord_of_encode [] rfl rfl, decodeTableWord_of_encode [0x00] rfl rfl,
    decodeTableWord_of_encode [] rfl rfl, decodeTableWord_of_encode [0x00] rfl rfl, ?_⟩
  have hbytes : bytesOfWord (0x200 % 2 ^ 16) = [0x00, 0x02, 0x00] := rfl
  rw [decodeTableWord, hbytes, decode_of_reserved_bits (by decide)]

/-! ### Dispatch -/

/-- A value chosen by the place of a command's row is chosen by the ordered comparisons of the dispatch rules. -/
theorem apply_commandRow {α : Type} (f : Nat → α) (c : Byte) : f (commandRow c) =
    if c = 0 then f 0 else if c = 1 then f 1 else if c = 2 then f 2 else if c = 3 then f 3 else if c = 4 then f 4
    else if c = 5 then f 5 else if c = 6 then f 6 else if c = 7 then f 7 else if c = 8 then f 8 else if c = 9 then f 9
    else if c ≤ 11 then f 10 else if c ≤ 15 then f 11 else if c ≤ 31 then f 12 else if c ≤ 63 then f 13
    else if c ≤ 127 then f 14 else f 15 := by
  have hplace : commandRow c =
      if c = 0 then 0 else if c = 1 then 1 else if c = 2 then 2 else if c = 3 then 3 else if c = 4 then 4
      else if c = 5 then 5 else if c = 6 then 6 else if c = 7 then 7 else if c = 8 then 8 else if c = 9 then 9
      else if c ≤ 11 then 10 else if c ≤ 15 then 11 else if c ≤ 31 then 12 else if c ≤ 63 then 13
      else if c ≤ 127 then 14 else 15 := by
    revert c
    decide
  rw [hplace]
  simp only [apply_ite f]

/-- Settles O16: in each direction the ordered choice is the place of the command's row, and the row at each place
builds the instruction named there. -/
theorem dispatchByCommand : Obligations.DispatchByCommand := by
  intro c b
  constructor
  · refine decode_write [] ((apply_commandRow (fun k => (opcodeRows[k]?).bind fun r => r.buildWrite c b) c).trans ?_)
    simp only [apply_ite some]
    rfl
  · refine decode_read [] ((apply_commandRow (fun k => (opcodeRows[16 + k]?).bind fun r => r.buildRead c) c).trans ?_)
    simp only [apply_ite some]
    rfl

end Sys2Proof

namespace Sys2Proof.Machine

/-! ### The step on a data byte -/

/-- Settles O17: the handler of a data byte lays out the key's bytes, so it runs what they decode to. -/
theorem stepRunsDecodedInstruction : Obligations.StepRunsDecodedInstruction := by
  intro s i rest _
  refine ⟨fun b h hd hi hdec => ?written, fun h hd hdec => ?requested⟩
  case written =>
    have hstep : step s = mapNext State.advanceIndex (exec i { s with inbox := rest }) := by
      rw [step_of_event h]
      refine (State.byteWritten_of_index_ne_zero (s := { s with inbox := rest }) hd hi).trans (congrArg _ ?_)
      exact runBytes_of_decode hdec _
    refine ⟨fun t ht => ?_, fun f hf => ?_, fun r hr => ?_⟩
    · rw [hstep, ht]; rfl
    · rw [hstep, hf]; rfl
    · rw [hstep, hr]; rfl
  case requested =>
    rw [step_of_event h]
    exact (State.byteRequested_of_read (s := { s with inbox := rest }) hd).trans (runBytes_of_decode hdec _)

end Sys2Proof.Machine
end

section
/-! The address match, the conversion results, the commit step and the missing slot (R93, R74..R77, R60, R26): one
equation per branch of their handlers. -/

namespace Sys2Proof.Machine

/-- Settles O18: the step hands the event to `State.matchAddress`, in either direction. -/
theorem addressMatchStartsTransaction : Obligations.AddressMatchStartsTransaction := by
  intro s d rest h
  rw [step_of_event h]
  cases d
  all_goals rfl

/-! ### Conversion results -/

/-- The end of a sequence, with the phase and the outputs that a pending start decides (R77). -/
theorem State.finish_eq (s : State) : s.finish = { s with
    discardInFlight := false, pendingStart := false
    seqPhase := if s.pendingStart then .settleA else .idle
    trace := if s.pendingStart then s.trace ++ [.settleArm] else s.trace } := by
  obtain ⟨hp, hf⟩ | ⟨hp, hf⟩ := s.finish_cases
  all_goals
    rw [hf, hp]
    rfl

/-- A discarded result of channel A is latched and finishes the sequence (R74). -/
theorem State.conversionDone_of_convA_discarded {s : State} (hp : s.seqPhase = .convA)
    (hd : s.discardInFlight = true) (v : BitVec 10) :
    s.conversionDone v = .next { s with resA := v }.finish := by
  simp only [State.conversionDone, hp]
  exact congrArg _ (if_pos hd)

/-- The result of channel A arms phase B (R74). -/
theorem State.conversionDone_of_convA {s : State} (hp : s.seqPhase = .convA) (hd : s.discardInFlight = false)
    (v : BitVec 10) :
    s.conversionDone v = .next { s with resA := v, seqPhase := .settleB, trace := s.trace ++ [.settleArm] } := by
  simp only [State.conversionDone, hp]
  exact congrArg _ (if_neg (Bool.eq_false_iff.1 hd))

/-- A discarded result of channel B finishes the sequence (R75). -/
theorem State.conversionDone_of_convB_discarded {s : State} (hp : s.seqPhase = .convB)
    (hd : s.discardInFlight = true) (v : BitVec 10) : s.conversionDone v = .next s.finish := by
  simp only [State.conversionDone, hp]
  exact if_pos hd

/-- The result of channel B pushes the pair and finishes the sequence (R75). -/
theorem State.conversionDone_of_convB {s : State} (hp : s.seqPhase = .convB) (hd : s.discardInFlight = false)
    (v : BitVec 10) :
    s.conversionDone v = mapNext (fun t => t.autoclearRun.finish) (s.push s.resA v) := by
  simp only [State.conversionDone, hp]
  exact if_neg (Bool.eq_false_iff.1 hd)

/-- A result in a phase that started no conversion is refused (R76). -/
theorem State.conversionDone_of_not_started {s : State} (ha : s.seqPhase ≠ .convA) (hb : s.seqPhase ≠ .convB)
    (v : BitVec 10) : s.conversionDone v = .refused .adcNotStarted :=
  State.conversionDone_eq_refused_iff.2 ⟨ha, hb, rfl⟩

/-- Settles O25: the step hands the event to `State.conversionDone`, whose discarded results finish the sequence. -/
theorem conversionResultHandled : Obligations.ConversionResultHandled := by
  intro s v rest h
  have hstep : step s = State.conversionDone { s with inbox := rest } v := step_of_event h
  rw [hstep]
  refine ⟨fun hp hd => State.conversionDone_of_convA (s := { s with inbox := rest }) hp hd v, fun hp hd => ?discardedA,
    fun hp hd => ?discardedB, fun ha hb => State.conversionDone_of_not_started (s := { s with inbox := rest }) ha hb v⟩
  case discardedA =>
    rw [State.conversionDone_of_convA_discarded (s := { s with inbox := rest }) hp hd, State.finish_eq]
  case discardedB =>
    rw [State.conversionDone_of_convB_discarded (s := { s with inbox := rest }) hp hd, State.finish_eq]

/-- Settles O26: the two equations of the push, each followed by the finish, which starts with no discard pending. -/
theorem pairedResultPushed : Obligations.PairedResultPushed := by
  intro s v rest h hp hd hhead
  have hstep : step s = mapNext (fun t => t.autoclearRun.finish) (State.push { s with inbox := rest } s.resA v) :=
    (step_of_event h).trans (State.conversionDone_of_convB (s := { s with inbox := rest }) hp hd v)
  rw [hstep]
  refine ⟨fun hfull => ?full, fun hroom => ?room⟩
  case full =>
    rw [State.push_of_full (s := { s with inbox := rest }) hfull, mapNext_next, State.finish_eq,
      ← overrunBump_eq_ite, ← hd]
    rfl
  case room =>
    rw [State.push_of_room (s := { s with inbox := rest }) hroom hhead, mapNext_next, State.finish_eq, ← hd]
    rfl

/-! ### The commit step -/

/-- Settles O28: the step hands the event to `State.commit`, which has one equation for each value of the flag. -/
theorem commitStepHandled : Obligations.CommitStepHandled := by
  intro s rest h
  have hstep : step s = .next (State.commit { s with inbox := rest }) := step_of_event h
  rw [hstep]
  exact ⟨fun hreq => congrArg _ (if_pos hreq), fun hreq => congrArg _ (if_neg (Bool.eq_false_iff.1 hreq))⟩

/-! ### The missing slot -/

/-- A cycle that was not latched empty faults where `tail` is no slot (R26). -/
theorem State.serve_of_missing {s : State} (he : s.rdEmpty = false) (ht : s.params.slots ≤ s.tail) (l : SampleLayout)
    (p : Nat) : s.serve l p = .fault .slotOutOfRange :=
  (if_neg (Bool.eq_false_iff.1 he)).trans (if_neg (Nat.not_lt.2 ht))

section
variable {s : State} {l : SampleLayout} (ht : s.params.slots ≤ s.tail)
  (hmax : s.byteIndex.toNat ≤ l.cycle * l.maxSamples)
include ht hmax

/-- A first position faults where the buffer is not empty and `tail` is no slot (R26, R68). -/
theorem State.peek_first_missing (hmod : s.byteIndex.toNat % l.cycle = 1) (hheld : s.head ≠ s.tail) :
    s.peek l = .fault .slotOutOfRange := by
  rw [State.peek_of_first hmax hmod]
  exact State.serve_of_missing (s := s.latchEmpty) (beq_false_of_ne hheld) ht l 1

/-- A later position faults where the cycle was not latched empty and `tail` is no slot (R26, R68). -/
theorem State.peek_later_missing (hi : s.byteIndex.toNat ≠ 0) (hmod : s.byteIndex.toNat % l.cycle ≠ 1)
    (he : s.rdEmpty = false) : s.peek l = .fault .slotOutOfRange :=
  (State.peek_of_later hmax hi hmod).trans (State.serve_of_missing he ht l _)

end

/-- Settles O37: the two faulting equations of the peek, for each layout. -/
theorem missingSlotFaults : Obligations.MissingSlotFaults := by
  intro s ht
  exact ⟨fun _ hmax hmod hheld => State.peek_first_missing (l := .unpacked) ht hmax hmod hheld,
    fun hi hmax hmod he => State.peek_later_missing (l := .unpacked) ht hmax (by omega) hmod he,
    fun _ hmax hmod hheld => State.peek_first_missing (l := .packed) ht hmax hmod hheld,
    fun hi hmax hmod he => State.peek_later_missing (l := .packed) ht hmax (by omega) hmod he⟩

end Sys2Proof.Machine
end

section
/-! The registers that one kind of event changes (R24, R26, R27, R79, R82, R90): every other event keeps them. -/

namespace Sys2Proof.Machine

/-- What most operations keep: the mode, the period, the auxiliary output, the address, the slots, a busy sequencer and
the record of the outputs, to which no PersistWrite is added. -/
structure State.Keeps (s t : State) : Prop where
  mode : t.mode = s.mode
  targetPeriod : t.targetPeriod = s.targetPeriod
  auxOut : t.auxOut = s.auxOut
  activeAddress : t.activeAddress = s.activeAddress
  buf : t.buf = s.buf
  busy : s.seqPhase ≠ .idle → t.seqPhase ≠ .idle
  trace : ∃ added, t.trace = s.trace ++ added ∧ ∀ b0 b1, Output.persistWrite b0 b1 ∉ added

/-- No operation at all. -/
theorem State.Keeps.refl (s : State) : s.Keeps s :=
  ⟨rfl, rfl, rfl, rfl, rfl, id, [], (List.append_nil _).symm, fun _ _ => List.not_mem_nil⟩

/-- Driving an output other than PersistWrite. -/
theorem State.Keeps.drive (s : State) {o : Output} (h : ∀ b0 b1, Output.persistWrite b0 b1 ≠ o) :
    s.Keeps (s.drive o) :=
  { State.Keeps.refl s with trace := ⟨[o], rfl, fun b0 b1 hmem => h b0 b1 (List.mem_singleton.1 hmem)⟩ }

/-- Serving a byte (R95). -/
theorem State.Keeps.emit (s : State) (b : Byte) : s.Keeps (s.emit b) :=
  State.Keeps.drive s (by nofun)

/-! ### Reading -/

/-- A peek past the latch (R68). -/
theorem State.Keeps.serve {s t : State} {l : SampleLayout} {p : Nat} (h : s.serve l p = .next t) : s.Keeps t := by
  obtain ⟨-, rfl⟩ | ⟨-, -, -, rfl⟩ | ⟨-, -, -, rfl⟩ := State.serve_cases h
  · exact .emit s _
  · exact .emit s _
  · exact { State.Keeps.emit s.advanceTail _ with }

/-- A peek (R68). -/
theorem State.Keeps.peek {s t : State} {l : SampleLayout} (h : s.peek l = .next t) : s.Keeps t := by
  obtain ⟨-, rfl⟩ | ⟨-, -, -, hserve⟩ | ⟨-, -, -, hserve⟩ := State.peek_cases h
  · exact .emit s _
  · exact { State.Keeps.serve hserve with }
  · exact .serve hserve

/-- Every read rule (R98). -/
theorem ReadEffect.keeps {s t : State} (h : ReadEffect s t) : s.Keeps t := by
  cases h with
  | served b => exact .emit s b
  | snapshot b => exact { State.Keeps.emit s.snapshotTicks b with }
  | unpacked _ _ hpeek => exact .peek hpeek
  | packed _ _ hpeek => exact .peek hpeek

/-! ### The sequencer -/

/-- A start request (R72). -/
theorem State.Keeps.requestStart (s : State) : s.Keeps s.requestStart := by
  obtain ⟨-, h⟩ | ⟨-, -, h⟩ | ⟨-, -, h⟩ := s.requestStart_cases
  all_goals rw [h]
  · exact { State.Keeps.drive s (o := .settleArm) (by nofun) with busy := fun _ => nofun }
  · exact { State.Keeps.refl s with }
  · exact { State.Keeps.refl s with }

/-- The end of a settling delay (R73). -/
theorem State.Keeps.settleExpired {s t : State} (h : s.settleExpired = .next t) : s.Keeps t := by
  obtain ⟨-, rfl⟩ | ⟨-, rfl⟩ := State.settleExpired_cases h
  · exact { State.Keeps.drive s (o := .adcStart .a) (by nofun) with busy := fun _ => nofun }
  · exact { State.Keeps.drive s (o := .adcStart .b) (by nofun) with busy := fun _ => nofun }

/-- The end of a sequence, but for the phase (R77). -/
theorem State.Keeps.finish (s : State) : s.Keeps { s.finish with seqPhase := s.seqPhase } := by
  obtain ⟨-, h⟩ | ⟨-, h⟩ := s.finish_cases
  all_goals rw [h]
  · exact { State.Keeps.drive s (o := .settleArm) (by nofun) with }
  · exact { State.Keeps.refl s with }

/-- A push, but for the slots (R65). -/
theorem State.Keeps.push {s t : State} {a b : BitVec 10} (h : s.push a b = .next t) :
    s.Keeps { t with buf := s.buf } := by
  obtain ⟨-, rfl⟩ | ⟨-, -, rfl⟩ := State.push_cases h
  all_goals exact { State.Keeps.refl s with }

/-- One operation after another. -/
theorem State.Keeps.trans {s t u : State} (h : s.Keeps t) (h' : t.Keeps u) : s.Keeps u := by
  obtain ⟨added, ht, hnone⟩ := h.trace
  obtain ⟨added', hu, hnone'⟩ := h'.trace
  exact {
    mode := h'.mode.trans h.mode
    targetPeriod := h'.targetPeriod.trans h.targetPeriod
    auxOut := h'.auxOut.trans h.auxOut
    activeAddress := h'.activeAddress.trans h.activeAddress
    buf := h'.buf.trans h.buf
    busy := h'.busy ∘ h.busy
    trace := ⟨added ++ added', by rw [hu, ht, List.append_assoc], fun b0 b1 hmem =>
      (List.mem_append.1 hmem).elim (hnone b0 b1) (hnone' b0 b1)⟩ }

/-- A conversion result, but for the phase and the slots (R74, R75). -/
theorem State.Keeps.conversionDone {s t : State} {v : BitVec 10} (h : s.conversionDone v = .next t) :
    s.Keeps { t with seqPhase := s.seqPhase, buf := s.buf } := by
  obtain ⟨-, -, rfl⟩ | ⟨-, -, rfl⟩ | ⟨-, -, rfl⟩ | ⟨-, -, u, hpush, rfl⟩ := State.conversionDone_cases h
  · exact { State.Keeps.finish { s with resA := v } with buf := rfl }
  · exact { State.Keeps.drive s (o := .settleArm) (by nofun) with }
  · exact { State.Keeps.finish s with buf := rfl }
  · have hpushed : s.Keeps { u.autoclearRun with buf := s.buf } := { State.Keeps.push hpush with }
    have hfinished := hpushed.trans (State.Keeps.finish { u.autoclearRun with buf := s.buf })
    rw [State.finish_eq] at hfinished ⊢
    exact { hfinished with busy := id }

/-- A conversion result changes the slot at `head`, and only when channel B's result is not discarded (R26, R75). -/
theorem State.conversionDone_slot {s t : State} {v : BitVec 10} {i : Nat} (h : s.conversionDone v = .next t)
    (hi : t.buf.read i ≠ s.buf.read i) : s.seqPhase = .convB ∧ s.discardInFlight = false ∧ i = s.head := by
  obtain ⟨-, -, rfl⟩ | ⟨-, -, rfl⟩ | ⟨-, -, rfl⟩ | ⟨hp, hd, u, hpush, rfl⟩ := State.conversionDone_cases h
  · rw [State.finish_eq] at hi
    exact absurd rfl hi
  · exact absurd rfl hi
  · rw [State.finish_eq] at hi
    exact absurd rfl hi
  · refine ⟨hp, hd, ?_⟩
    rw [State.finish_eq] at hi
    obtain ⟨-, rfl⟩ | ⟨-, -, rfl⟩ := State.push_cases hpush
    · exact absurd rfl hi
    · by_contra hne
      exact hi (Memory.read_write_other _ _ _ _ hne)

/-! ### The mode machine and the settings -/

/-- A control write, but for the mode (R81). -/
theorem State.Keeps.controlWrite (s : State) (b : Byte) : s.Keeps { s.controlWrite b with mode := s.mode } := by
  obtain ⟨-, h⟩ | ⟨-, -, h⟩ | ⟨-, -, h⟩ | ⟨-, -, h⟩ := s.controlWrite_cases b
  all_goals rw [h]
  · exact { State.Keeps.refl s with }
  · have hstart := State.Keeps.requestStart (State.fifoReset { s.latchControl b with mode := .single })
    exact { hstart with mode := rfl }
  · exact { State.Keeps.refl s with }
  · exact { State.Keeps.refl s with }

/-- An expiry, but for the auxiliary output (R87, R90). -/
theorem State.Keeps.expire (s : State) : s.Keeps { s.expire with auxOut := s.auxOut } :=
  { State.Keeps.requestStart { s with
      currentCountdown := s.targetPeriod
      cumulativeTicks := s.cumulativeTicks + 1
      auxOut := !s.auxOut } with auxOut := rfl }

/-- An edge (R88). -/
theorem State.Keeps.edge (s : State) : s.Keeps s.edge := by
  obtain ⟨-, h⟩ | ⟨-, h⟩ := s.edge_cases
  all_goals rw [h]
  · exact .refl s
  · exact .requestStart s

/-! ### The handlers -/

/-- Everything an event can do to the registers of `State.Keeps`: nothing, or the one change that is its own. -/
inductive HandleEffect (s t : State) : Event → Prop where
  | kept {e : Event} (h : s.Keeps t) : HandleEffect s t e
  | control (b : Byte) (hd : s.busDir = .write) (hc : s.activeCommand = 0x00) (hi : s.byteIndex = 1)
      (h : s.Keeps { t with mode := s.mode }) : HandleEffect s t (.byteWritten b)
  | period (b : Byte) (hd : s.busDir = .write) (hc : s.activeCommand = 0x01) (hi : s.byteIndex = 2)
      (h : s.Keeps { t with targetPeriod := s.targetPeriod }) : HandleEffect s t (.byteWritten b)
  | expiry (hm : s.mode = .timer) (hc : s.currentCountdown = 1) (h : s.Keeps { t with auxOut := s.auxOut }) :
      HandleEffect s t .tick
  | result (v : BitVec 10) (h : s.Keeps { t with seqPhase := s.seqPhase, buf := s.buf })
      (hslot : ∀ i, t.buf.read i ≠ s.buf.read i → s.seqPhase = .convB ∧ s.discardInFlight = false ∧ i = s.head) :
      HandleEffect s t (.adcDone v)
  | commit (hreq : s.commitRequested = true) (haddress : t.activeAddress = s.stagedAddress)
      (htrace : t.trace = s.trace ++ [.persistWrite (byteOfAddress s.stagedAddress) (byteOfTrim s.trim)])
      (h : s.Keeps { t with activeAddress := s.activeAddress, trace := s.trace }) : HandleEffect s t .commitStep
  | reset (r : BootRecord) (htrace : t.trace = s.trace) : HandleEffect s t (.reset r)

/-- A written byte: the index and the transaction's registers are none of those kept, so the write effect decides. -/
theorem State.byteWritten_handleEffect {s t : State} {b : Byte} (h : s.byteWritten b = .next t) :
    HandleEffect s t (.byteWritten b) := by
  obtain ⟨hd, ⟨-, rfl⟩ | ⟨-, u, heffect, rfl⟩⟩ := State.byteWritten_cases h
  · exact .kept { State.Keeps.refl s with }
  · cases heffect with
    | control hc hi => exact .control b hd hc hi { State.Keeps.controlWrite s b with }
    | periodHigh hc hi => exact .period b hd hc hi { State.Keeps.refl s with }
    | ignored => exact .kept { State.Keeps.refl s with }
    | periodLow => exact .kept { State.Keeps.refl s with }
    | address => exact .kept { State.Keeps.refl s with }
    | trim => exact .kept { State.Keeps.refl s with }
    | arm => exact .kept { State.Keeps.refl s with }
    | request => exact .kept { State.Keeps.refl s with }

/-- A tick. -/
theorem State.tick_handleEffect (s : State) : HandleEffect s s.tick .tick := by
  obtain ⟨-, h⟩ | ⟨-, -, h⟩ | ⟨hm, hc, h⟩ := s.tick_cases
  all_goals rw [h]
  · exact .kept (.refl s)
  · exact .kept { State.Keeps.refl s with }
  · exact .expiry hm hc (.expire s)

/-- A commit step. -/
theorem State.commit_handleEffect (s : State) : HandleEffect s s.commit .commitStep := by
  obtain ⟨-, h⟩ | ⟨hreq, h⟩ := s.commit_cases
  all_goals rw [h]
  · exact .kept (.refl s)
  · exact .commit hreq rfl rfl { State.Keeps.refl s with }

/-- Every handler that answers a next state has one of these effects. -/
theorem State.handle_effect {s t : State} {e : Event} (h : s.handle e = .next t) : HandleEffect s t e := by
  cases e with
  | addrMatch d => cases h; exact .kept { State.Keeps.refl s with }
  | byteWritten b => exact State.byteWritten_handleEffect h
  | byteRequested =>
    obtain ⟨-, heffect⟩ := State.byteRequested_cases h
    exact .kept { heffect.keeps with }
  | tick => cases h; exact s.tick_handleEffect
  | edge => cases h; exact .kept (.edge s)
  | settleDone => exact .kept (.settleExpired h)
  | adcDone v => exact .result v (.conversionDone h) fun _ => State.conversionDone_slot h
  | commitStep => cases h; exact s.commit_handleEffect
  | reset r =>
    obtain ⟨-, rfl⟩ := State.powerOn_cases h
    exact .reset r rfl

/-- A step waits, or has the effect of the next event, which is taken from the inbox. -/
theorem step_effect {s t : State} (h : step s = .next t) :
    t = s ∨ ∃ e rest, s.inbox = e :: rest ∧ HandleEffect { s with inbox := rest } t e := by
  obtain ⟨-, rfl⟩ | ⟨e, rest, hin, hhandle⟩ := step_cases h
  · exact .inl rfl
  · exact .inr ⟨e, rest, hin, State.handle_effect hhandle⟩

/-! ### The step -/

/-- Settles O6: of all effects only a control write and a reset touch the mode. -/
theorem modeChangesOnlyByControlWriteOrReset : Obligations.ModeChangesOnlyByControlWriteOrReset := by
  intro s t h hne
  obtain rfl | ⟨e, rest, hin, heffect⟩ := step_effect h
  · exact absurd rfl hne
  · cases heffect
    case control b hd hc hi _ => exact .inl ⟨b, rest, hin, hd, hc, hi⟩
    case reset r _ => exact .inr ⟨r, rest, hin⟩
    case kept hk | period hk | expiry hk | result hk _ | commit hk => exact absurd hk.mode hne

/-- Settles O7: of all effects only a commit step and a reset touch the address. -/
theorem addressChangesOnlyByCommitOrReset : Obligations.AddressChangesOnlyByCommitOrReset := by
  intro s t h hne
  obtain rfl | ⟨e, rest, hin, heffect⟩ := step_effect h
  · exact absurd rfl hne
  · cases heffect
    case commit hreq haddress _ _ => exact .inl ⟨rest, hin, hreq, haddress⟩
    case reset r _ => exact .inr ⟨r, rest, hin⟩
    case kept hk | control hk | period hk | expiry hk | result hk _ => exact absurd hk.activeAddress hne

/-- The byte of an address is the same number (R60). -/
theorem toNat_byteOfAddress (a : BitVec 7) : (byteOfAddress a).toNat = a.toNat :=
  BitVec.toNat_setWidth_of_le (by decide)

/-- Where no PersistWrite is added, all that are added have any property. -/
theorem exists_added_of_no_persistWrite {before after : List Output} {P : Byte → Byte → Prop}
    (h : ∃ added, after = before ++ added ∧ ∀ b0 b1, Output.persistWrite b0 b1 ∉ added) :
    ∃ added, after = before ++ added ∧ ∀ b0 b1, Output.persistWrite b0 b1 ∈ added → P b0 b1 := by
  obtain ⟨added, htrace, hnone⟩ := h
  exact ⟨added, htrace, fun b0 b1 hmem => absurd hmem (hnone b0 b1)⟩

/-- Settles O8: of all effects only a commit step drives a PersistWrite, and a reset drives nothing. -/
theorem persistWriteOnlyAtCommitStep : Obligations.PersistWriteOnlyAtCommitStep := by
  intro s t h
  obtain rfl | ⟨e, rest, hin, heffect⟩ := step_effect h
  · exact exists_added_of_no_persistWrite (State.Keeps.refl t).trace
  · cases heffect
    case commit hreq _ htrace _ =>
      refine ⟨_, htrace, fun b0 b1 hmem => ?_⟩
      cases List.mem_singleton.1 hmem
      exact ⟨⟨rest, hin⟩, hreq, toNat_byteOfAddress _, toInt_byteOfTrim _⟩
    case reset r htrace =>
      exact exists_added_of_no_persistWrite ⟨[], htrace.trans (List.append_nil _).symm, fun _ _ => List.not_mem_nil⟩
    case kept hk | control hk | period hk | expiry hk | result hk _ =>
      exact exists_added_of_no_persistWrite hk.trace

/-- Settles O9: of all effects only an expiry and a reset touch the auxiliary output. -/
theorem auxTogglesOnlyAtExpiry : Obligations.AuxTogglesOnlyAtExpiry := by
  intro s t h hne
  obtain rfl | ⟨e, rest, hin, heffect⟩ := step_effect h
  · exact absurd rfl hne
  · cases heffect
    case expiry hm hc _ => exact .inl ⟨rest, hin, hm, hc⟩
    case reset r _ => exact .inr ⟨r, rest, hin⟩
    case kept hk | control hk | period hk | result hk _ | commit hk => exact absurd hk.auxOut hne

/-- Settles O10: of all effects only a conversion result and a reset take a busy sequencer to Idle. -/
theorem sequencerIdlesOnlyOnResult : Obligations.SequencerIdlesOnlyOnResult := by
  intro s t h hbusy hidle
  obtain rfl | ⟨e, rest, hin, heffect⟩ := step_effect h
  · exact absurd hidle hbusy
  · cases heffect
    case result v _ _ => exact .inl ⟨v, rest, hin⟩
    case reset r _ => exact .inr ⟨r, rest, hin⟩
    case kept hk | control hk | period hk | expiry hk | commit hk => exact absurd hidle (hk.busy hbusy)

/-- Settles O11: of all effects only a conversion result and a reset touch the slots, and the result only the one at
`head`. -/
theorem slotsChangeOnlyByPush : Obligations.SlotsChangeOnlyByPush := by
  intro s t i h hne
  obtain rfl | ⟨e, rest, hin, heffect⟩ := step_effect h
  · exact absurd rfl hne
  · cases heffect
    case result v _ hslot => exact .inl ⟨⟨v, rest, hin⟩, hslot i hne⟩
    case reset r _ => exact .inr ⟨r, rest, hin⟩
    case kept hk | control hk | period hk | expiry hk | commit hk =>
      exact absurd (congrArg (Memory.read · i) hk.buf) hne

/-- Settles O12: of all effects only a period write and a reset touch the period. -/
theorem periodChangesOnlyByPeriodWriteOrReset : Obligations.PeriodChangesOnlyByPeriodWriteOrReset := by
  intro s t h hne
  obtain rfl | ⟨e, rest, hin, heffect⟩ := step_effect h
  · exact absurd rfl hne
  · cases heffect
    case period b hd hc hi _ => exact .inl ⟨b, rest, hin, hd, hc, hi⟩
    case reset r _ => exact .inr ⟨r, rest, hin⟩
    case kept hk | control hk | expiry hk | result hk _ | commit hk => exact absurd hk.targetPeriod hne

end Sys2Proof.Machine
end

section
/-! Both sample layouts carry the whole sample (R45, R46), and the bus interface picks its own transfers out by the
address byte (R24, R38). -/

namespace Sys2Proof.Machine

/-! ### Sample layouts -/

/-- Samples with the same numbers are the same. -/
theorem Sample.eq_of_toNat {x y : Sample} (ha : x.a.toNat = y.a.toNat) (hb : x.b.toNat = y.b.toNat)
    (hov : x.ov.toNat = y.ov.toNat) (hvalid : x.valid.toNat = y.valid.toNat) : x = y := by
  cases x
  cases y
  simp only [Sample.mk.injEq]
  exact ⟨BitVec.eq_of_toNat_eq ha, BitVec.eq_of_toNat_eq hb, BitVec.eq_of_toNat_eq hov,
    Function.LeftInverse.injective Bool.ofNat_toNat hvalid⟩

/-- The four unpacked bytes determine the sample: each field is a digit of one of their numbers. -/
theorem Sample.eq_of_unpackedByte {x y : Sample} (h : ∀ p, 1 ≤ p → p ≤ 4 → unpackedByte x p = unpackedByte y p) :
    x = y := by
  have h1 := congrArg BitVec.toNat (h 1 (by decide) (by decide))
  have h2 := congrArg BitVec.toNat (h 2 (by decide) (by decide))
  have h3 := congrArg BitVec.toNat (h 3 (by decide) (by decide))
  have h4 := congrArg BitVec.toNat (h 4 (by decide) (by decide))
  rw [toNat_unpackedByte_one, toNat_unpackedByte_one] at h1
  rw [toNat_unpackedByte_two, toNat_unpackedByte_two] at h2
  rw [toNat_unpackedByte_three, toNat_unpackedByte_three] at h3
  rw [toNat_unpackedByte_four, toNat_unpackedByte_four] at h4
  have hx := x.b.isLt
  have hy := y.b.isLt
  have hxov := x.ov.isLt
  have hyov := y.ov.isLt
  exact Sample.eq_of_toNat (by omega) (by omega) (by omega) (by omega)

/-- The packed word determines the sample: each field is a digit of its number. -/
theorem Sample.eq_of_packedWord {x y : Sample} (h : (packedWord x).toNat = (packedWord y).toNat) : x = y := by
  rw [toNat_packedWord, toNat_packedWord] at h
  have hxa := x.a.isLt
  have hya := y.a.isLt
  have hxb := x.b.isLt
  have hyb := y.b.isLt
  have hxov := x.ov.isLt
  have hyov := y.ov.isLt
  exact Sample.eq_of_toNat (by omega) (by omega) (by omega) (by omega)

/-- Settles O49: the unpacked bytes determine the sample, and so do the packed ones, which put together are the packed
word. -/
theorem bothLayoutsCarryTheSample : Obligations.BothLayoutsCarryTheSample := by
  intro x y
  refine ⟨⟨Sample.eq_of_unpackedByte, fun h _ _ _ => by rw [h]⟩, ⟨fun h => ?packed, fun h _ _ _ => by rw [h]⟩⟩
  case packed =>
    apply Sample.eq_of_packedWord
    rw [← packedBytes_eq_packedWord, ← packedBytes_eq_packedWord, h 1 (by decide) (by decide),
      h 2 (by decide) (by decide), h 3 (by decide) (by decide)]

/-! ### The bus interface -/

/-- Bits 7:1 of an address byte are its address (R38). -/
theorem extract_addressByte (a : BitVec 7) (d : Dir) : (addressByte a d).extractLsb' 1 7 = a := by
  revert a
  cases d
  all_goals decide

/-- Bit 0 of an address byte is its direction (R38). -/
theorem directionOf_addressByte (a : BitVec 7) (d : Dir) : directionOf (addressByte a d) = d := by
  revert a
  cases d
  all_goals decide

/-- A transfer is the block's, whatever went before, exactly when its address is the block's own (R24). -/
theorem busInterface_addressByte (own a : BitVec 7) (d : Dir) (selected : Bool) :
    busInterface own selected (.address (addressByte a d)) =
      if a = own then (true, some (.addrMatch d)) else (false, none) := by
  rw [busInterface, extract_addressByte, directionOf_addressByte]

/-- Settles O54: the comparison fails, and a transfer not selected delivers no byte. -/
theorem foreignTransferDeliversNothing : Obligations.ForeignTransferDeliversNothing := by
  intro own a d selected b hne
  exact ⟨(busInterface_addressByte own a d selected).trans (if_neg hne), rfl, rfl⟩

end Sys2Proof.Machine
end

section
/-! Runs of ticks in Timer mode (R87): the countdown to an expiry, and one expiry in every period. -/

namespace Sys2Proof.Machine

/-- A start request does not look at the events behind it. -/
theorem State.requestStart_of_inbox (s : State) (es : List Event) :
    State.requestStart { s with inbox := es } = { s.requestStart with inbox := es } := by
  unfold State.requestStart
  split
  · rfl
  · split
    all_goals rfl

/-- An expiry does not look at the events behind it. -/
theorem State.expire_of_inbox (s : State) (es : List Event) :
    State.expire { s with inbox := es } = { s.expire with inbox := es } :=
  State.requestStart_of_inbox { s with
    currentCountdown := s.targetPeriod
    cumulativeTicks := s.cumulativeTicks + 1
    auxOut := !s.auxOut } es

/-- A tick does not look at the events behind it. -/
theorem State.tick_of_inbox (s : State) (es : List Event) :
    State.tick { s with inbox := es } = { s.tick with inbox := es } := by
  unfold State.tick
  split
  · split
    · exact s.expire_of_inbox es
    · rfl
  · rfl

/-- A tick in a run. -/
theorem runEvents_tick (s : State) (es : List Event) : runEvents s (.tick :: es) = runEvents s.tick es :=
  runEvents_cons es fun es => congrArg _ (s.tick_of_inbox es)

/-- Before the countdown's last tick nothing but the countdown changes. -/
theorem runEvents_ticks_before_expiry (es : List Event) (k : Nat) : ∀ s : State, s.mode = .timer →
    k < s.currentCountdown.toNat →
    runEvents s (List.replicate k .tick ++ es) =
      runEvents { s with currentCountdown := s.currentCountdown - BitVec.ofNat 16 k } es := by
  induction k with
  | zero =>
    intro s _ _
    rw [List.replicate_zero, List.nil_append, BitVec.sub_zero]
  | succ k ih =>
    intro s hm hk
    have hone : s.currentCountdown ≠ 1 := by bv_omega
    have hrest : s.currentCountdown - 1 - BitVec.ofNat 16 k = s.currentCountdown - BitVec.ofNat 16 (k + 1) := by
      bv_omega
    have hless : k < (s.currentCountdown - 1).toNat := by bv_omega
    rw [List.replicate_succ, List.cons_append, runEvents_tick, State.tick_of_countdown_ne_one hm hone,
      ih { s with currentCountdown := s.currentCountdown - 1 } hm hless]
    simp only [hrest]

/-- The countdown's last tick expires. -/
theorem runEvents_ticks_to_expiry {s : State} (hm : s.mode = .timer) (hc : s.currentCountdown ≠ 0) (es : List Event) :
    runEvents s (List.replicate s.currentCountdown.toNat .tick ++ es) = runEvents s.expire es := by
  obtain ⟨k, hk⟩ : ∃ k, s.currentCountdown.toNat = k + 1 := ⟨s.currentCountdown.toNat - 1, by bv_omega⟩
  have hlast : s.currentCountdown - BitVec.ofNat 16 k = 1 := by bv_omega
  rw [hk, List.replicate_succ', List.append_assoc, List.singleton_append,
    runEvents_ticks_before_expiry _ k s hm (by omega), hlast, runEvents_tick,
    State.tick_of_countdown_eq_one (s := { s with currentCountdown := 1 }) hm rfl]
  rfl

/-- Settles O51: the run of ticks stops short of the expiry, or takes the last tick too. -/
theorem countdownRunsToExpiry : Obligations.CountdownRunsToExpiry := by
  intro s k hm hk
  have hbefore := runEvents_ticks_before_expiry [] k s hm hk
  have hlast := runEvents_ticks_to_expiry hm (by bv_omega) []
  rw [List.append_nil] at hbefore hlast
  refine ⟨hbefore, hlast.trans ?_⟩
  rw [runEvents_nil]
  exact congrArg _ (s.expire_of_inbox []).symm

/-- Everything an expiry leaves alone, and the three registers that it sets (R87). -/
theorem State.expire_frame (s : State) : ∃ phase pending overruns outputs,
    s.expire = { s with
      currentCountdown := s.targetPeriod
      cumulativeTicks := s.cumulativeTicks + 1
      auxOut := !s.auxOut
      seqPhase := phase, pendingStart := pending, overrunCount := overruns, trace := outputs } :=
  State.requestStart_frame _

/-- Settles O50, by induction on the number of periods: the first one ends in an expiry, which reloads the countdown. -/
theorem expiriesComeEveryPeriod : Obligations.ExpiriesComeEveryPeriod := by
  intro s n
  induction n generalizing s with
  | zero =>
    intro hm hc _
    rw [Nat.zero_mul]
    exact ⟨_, runEvents_nil s, by simp, hc, rfl, hm, rfl⟩
  | succ n ih =>
    intro hm hc hp
    obtain ⟨phase, pending, overruns, outputs, hexpire⟩ := s.expire_frame
    obtain ⟨t, hrun, hticks, hcount, hperiod, hmode, haux⟩ := ih s.expire (by rw [hexpire]; exact hm)
      (by rw [hexpire]) (by rw [hexpire]; exact hp)
    rw [hexpire] at hrun hticks hcount hperiod haux
    refine ⟨t, ?_, ?_, hcount, hperiod, hmode, ?_⟩
    · rw [Nat.succ_mul, Nat.add_comm, List.replicate_add, ← hc, runEvents_ticks_to_expiry hm (hc ▸ hp), hexpire, hc]
      exact hrun
    · rw [hticks]
      bv_omega
    · rw [haux]
      obtain h | h := Nat.mod_two_eq_zero_or_one n
      · rw [if_pos h, if_neg (by omega)]
      · rw [if_neg (by omega), if_pos (by omega), Bool.not_not]

end Sys2Proof.Machine
end

section
/-! Write transactions (R94, R52): the commit sequence, an address change and a stop. -/

namespace Sys2Proof.Machine

/-- The state in which a write transaction finds its first data byte (R93, R94). -/
def State.writeStart (s : State) (c : Byte) : State :=
  { s with busDir := .write, byteIndex := 1, commitArm := false, rdEmpty := false, activeCommand := c }

/-- A write transaction runs its data bytes from there. -/
theorem runEvents_hostWrite (s : State) (c : Byte) (data : List Byte) (es : List Event) :
    runEvents s (hostWrite c data ++ es) = runEvents (s.writeStart c) (data.map .byteWritten ++ es) := by
  rw [hostWrite, List.cons_append, List.cons_append, runEvents_addrMatch, runEvents_command _ _ rfl rfl]
  rfl

/-- A write transaction of one data byte: its instruction's meaning, then the index is 2 if it was kept. -/
theorem runEvents_hostWrite_one {s t : State} {c b : Byte} {i : Instr} (hdec : decode [c, 0x00, b] = .ok (i, []))
    (he : ∀ es, exec i { s.writeStart c with inbox := es } = .next { t with inbox := es }) (es : List Event) :
    runEvents s (hostWrite c [b] ++ es) = runEvents t.advanceIndex es := by
  have hindex : (s.writeStart c).byteIndex ≠ 0 := by
    show (1 : Byte) ≠ 0
    decide
  rw [runEvents_hostWrite]
  exact runEvents_data es rfl hindex hdec he

/-! ### The commit sequence -/

/-- Past position 2 a byte of a command 9 write is ignored (R119). -/
theorem exec_c9wCommit_of_later {s : State} (hi : 3 ≤ s.byteIndex.toNat) (b : Byte) :
    exec (.c9wCommit b) s = .next s := by
  have h1 : s.byteIndex ≠ 1 := by bv_omega
  have h2 : s.byteIndex ≠ 2 := by bv_omega
  exact congrArg _ ((if_neg h1).trans (if_neg h2))

section
variable {s : State} (hd : s.busDir = .write) (hc : s.activeCommand = 0x09)
include hd hc

/-- A byte of a command 9 write in a run. -/
theorem runEvents_commitByte {t : State} {b : Byte} (hi : s.byteIndex ≠ 0)
    (he : ∀ es, exec (.c9wCommit b) { s with inbox := es } = .next { t with inbox := es }) (es : List Event) :
    runEvents s (.byteWritten b :: es) = runEvents t.advanceIndex es :=
  runEvents_data es hd hi (by rw [hc]; exact decode_write [] rfl) he

/-- Byte 1 of a command 9 write: the comparison with 0x55 is stored. -/
theorem runEvents_commitFirst (hi : s.byteIndex = 1) (b : Byte) (es : List Event) :
    runEvents s (.byteWritten b :: es) = runEvents (State.advanceIndex { s with commitArm := armsCommit b }) es :=
  runEvents_commitByte hd hc (by rw [hi]; decide) (fun _ => congrArg _ (if_pos hi)) es

/-- Byte 2 of a command 9 write: the request is raised when the byte completes the sequence. -/
theorem runEvents_commitSecond (hi : s.byteIndex = 2) (b : Byte) (es : List Event) :
    runEvents s (.byteWritten b :: es) = runEvents (State.advanceIndex { s with
      commitRequested := s.commitRequested || completesCommit s.commitArm b, commitArm := false }) es :=
  runEvents_commitByte hd hc (by rw [hi]; decide)
    (fun es => exec_c9wCommit_of_two (s := { s with inbox := es }) hi b) es

end

/-- The bytes behind byte 2 of a command 9 write change the index only. -/
theorem runEvents_commitRest (data : List Byte) : ∀ s : State, s.busDir = .write → s.activeCommand = 0x09 →
    3 ≤ s.byteIndex.toNat →
    ∃ i, runEvents s (data.map .byteWritten) = .next { s with inbox := [], byteIndex := i } := by
  induction data with
  | nil => exact fun s _ _ _ => ⟨s.byteIndex, runEvents_nil s⟩
  | cons b data ih =>
    intro s hd hc hi
    have hnext : 3 ≤ s.advanceIndex.byteIndex.toNat := by
      rw [State.advanceIndex_byteIndex, toNat_indexBump]
      omega
    obtain ⟨i, hrest⟩ := ih s.advanceIndex hd hc hnext
    refine ⟨i, ?_⟩
    rw [List.map_cons, runEvents_commitByte hd hc (t := s) (by bv_omega)
      (fun es => exec_c9wCommit_of_later (s := { s with inbox := es }) hi b), hrest]
    rfl

/-- The first two data bytes of a command 9 write: the request is raised when they are the sequence. -/
theorem runEvents_commitTwo (s : State) (a b : Byte) (es : List Event) :
    runEvents (s.writeStart 0x09) (.byteWritten a :: .byteWritten b :: es) =
      runEvents { s.writeStart 0x09 with
        byteIndex := 3, commitRequested := s.commitRequested || completesCommit (armsCommit a) b } es := by
  rw [runEvents_commitFirst rfl rfl rfl, runEvents_commitSecond rfl rfl rfl]
  rfl

/-- Settles O52: the arm is clear when the transaction begins, byte 1 sets it on 0x55, byte 2 raises the request on 0xAA
if armed, and no other byte counts. -/
theorem commitNeedsExactSequence : Obligations.CommitNeedsExactSequence := by
  intro s data
  have hstart := runEvents_hostWrite s 0x09 data []
  rw [List.append_nil, List.append_nil] at hstart
  rw [hstart]
  match data with
  | [] => exact ⟨_, runEvents_nil _, by simp [State.writeStart], rfl, rfl, rfl, rfl⟩
  | [a] =>
    rw [List.map_cons, runEvents_commitFirst rfl rfl rfl]
    exact ⟨_, runEvents_nil _, by simp [State.writeStart], rfl, rfl, rfl, rfl⟩
  | a :: b :: data =>
    obtain ⟨i, hrest⟩ := runEvents_commitRest data { s.writeStart 0x09 with
      byteIndex := 3, commitRequested := s.commitRequested || completesCommit (armsCommit a) b } rfl rfl (Nat.le_refl 3)
    rw [List.map_cons, List.map_cons, runEvents_commitTwo, hrest]
    refine ⟨_, rfl, ?_, rfl, rfl, rfl, rfl⟩
    show (s.commitRequested || completesCommit (armsCommit a) b) = true ↔ _
    rw [Bool.or_eq_true, completesCommit_iff, armsCommit, beq_iff_eq]
    simp

/-! ### An address change -/

/-- Byte 1 of a command 5 write, in range or not (R111). -/
theorem exec_c5wAddrStage_of_one {s : State} (hi : s.byteIndex = 1) (b : Byte) :
    exec (.c5wAddrStage b) s = .next { s with
      stagedAddress := if addressInRange b then addressOfByte b else s.stagedAddress } := by
  split
  case isTrue hr => exact exec_c5wAddrStage_of_inRange hi hr
  case isFalse hr => exact exec_c5wAddrStage_of_ignored fun h => hr h.right

/-- A write transaction that stages an address. -/
theorem runEvents_stageAddress (s : State) (b : Byte) (es : List Event) :
    runEvents s (hostWrite 0x05 [b] ++ es) = runEvents { s.writeStart 0x05 with
      byteIndex := 2, stagedAddress := if addressInRange b then addressOfByte b else s.stagedAddress } es := by
  exact runEvents_hostWrite_one (decode_write [] rfl)
    (t := { s.writeStart 0x05 with
      stagedAddress := if addressInRange b then addressOfByte b else s.stagedAddress })
    (fun es => exec_c5wAddrStage_of_one (s := { s.writeStart 0x05 with inbox := es }) rfl b) es

/-- The write transaction that requests a commit. -/
theorem runEvents_requestCommit (s : State) (es : List Event) :
    runEvents s (hostWrite 0x09 [0x55, 0xAA] ++ es) =
      runEvents { s.writeStart 0x09 with byteIndex := 3, commitRequested := true } es := by
  have hdone : (s.commitRequested || completesCommit (armsCommit 0x55) 0xAA) = true := Bool.or_true _
  rw [runEvents_hostWrite, List.map_cons, List.map_cons, List.map_nil, List.cons_append, List.cons_append,
    List.nil_append, runEvents_commitTwo, hdone]

/-- A commit step with the flag set, in a run (R60). -/
theorem runEvents_commitStep {s : State} (hreq : s.commitRequested = true) (es : List Event) :
    runEvents s (.commitStep :: es) = runEvents { s with
      activeAddress := s.stagedAddress
      commitRequested := false
      trace := s.trace ++ [.persistWrite (byteOfAddress s.stagedAddress) (byteOfTrim s.trim)] } es :=
  runEvents_cons es fun _ => congrArg _ (if_pos hreq)

/-- Settles O53: the staged address goes through the commit unchanged, and the bus interface compares with it. -/
theorem addressChangeRoundTrip : Obligations.AddressChangeRoundTrip := by
  intro s b
  have haddress : (if addressInRange b then addressOfByte b else s.stagedAddress) =
      if 0x03 ≤ b.toNat ∧ b.toNat ≤ 0x77 then BitVec.ofNat 7 b.toNat else s.stagedAddress :=
    if_congr (addressInRange_iff b) (extractLsb'_low_eq_ofNat 7 b) rfl
  rw [List.append_assoc, runEvents_stageAddress, runEvents_requestCommit, runEvents_commitStep rfl, runEvents_nil]
  exact ⟨_, rfl, haddress, rfl, rfl, rfl, fun a d selected => busInterface_addressByte _ a d selected⟩

/-! ### A stop during a conversion -/

/-- The state that a stop leaves during a conversion, which is marked for discard (R78, R81, R83). -/
def State.stopped (s : State) (b : Byte) : State :=
  { s.writeStart 0x00 with
    byteIndex := 2, ctrlRun := false, ctrlMode := b.extractLsb' 1 2, pendingStart := false, discardInFlight := true
    mode := .off, head := 0, tail := 0, overrunCount := 0 }

/-- A stop during a conversion (R81, R83). -/
theorem State.controlWrite_stop_of_busy {s : State} {b : Byte} (hstop : b.getLsbD 0 = false)
    (hbusy : s.seqPhase ≠ .idle) :
    s.controlWrite b = { s with
      ctrlRun := false, ctrlMode := b.extractLsb' 1 2, pendingStart := false, discardInFlight := true
      mode := .off, head := 0, tail := 0, overrunCount := 0 } := by
  rw [s.controlWrite_stop hstop, if_neg hbusy]

/-- The write transaction that stops the block during a conversion. -/
theorem runEvents_stop {s : State} {b : Byte} (hstop : b.getLsbD 0 = false) (hbusy : s.seqPhase ≠ .idle)
    (es : List Event) : runEvents s (hostWrite 0x00 [b] ++ es) = runEvents (s.stopped b) es := by
  refine runEvents_hostWrite_one (i := .c0wControl b) (decode_write [] rfl) (t := { s.writeStart 0x00 with
    ctrlRun := false, ctrlMode := b.extractLsb' 1 2, pendingStart := false, discardInFlight := true
    mode := .off, head := 0, tail := 0, overrunCount := 0 }) (fun es => ?_) es
  rw [exec_c0wControl_of_one rfl]
  exact congrArg _ (State.controlWrite_stop_of_busy (s := { s.writeStart 0x00 with inbox := es }) hstop hbusy)

/-- The end of a settling delay of phase A, in a run (R73). -/
theorem runEvents_settleA {s : State} (hp : s.seqPhase = .settleA) (es : List Event) :
    runEvents s (.settleDone :: es) =
      runEvents { s with seqPhase := .convA, trace := s.trace ++ [.adcStart .a] } es :=
  runEvents_cons es fun es => State.settleExpired_of_settleA (s := { s with inbox := es }) hp

/-- The end of a settling delay of phase B, in a run (R73). -/
theorem runEvents_settleB {s : State} (hp : s.seqPhase = .settleB) (es : List Event) :
    runEvents s (.settleDone :: es) =
      runEvents { s with seqPhase := .convB, trace := s.trace ++ [.adcStart .b] } es :=
  runEvents_cons es fun es => State.settleExpired_of_settleB (s := { s with inbox := es }) hp

/-- A discarded result with no start pending, as the last event of a run: the sequence ends and nothing is pushed
(R74, R75). -/
theorem runEvents_discarded {s : State} (hp : s.seqPhase = .convA ∨ s.seqPhase = .convB)
    (hd : s.discardInFlight = true) (hnone : s.pendingStart = false) (v : BitVec 10) :
    ∃ r, runEvents s [.adcDone v] =
      .next { s with inbox := [], resA := r, discardInFlight := false, seqPhase := .idle } := by
  obtain hp | hp := hp
  · refine ⟨v, (runEvents_cons [] (t := { s with resA := v, discardInFlight := false, seqPhase := .idle })
      fun es => ?_).trans (runEvents_nil _)⟩
    refine (State.conversionDone_of_convA_discarded (s := { s with inbox := es }) hp hd v).trans ?_
    exact congrArg _ (State.finish_of_not_pending (s := { s with inbox := es, resA := v }) hnone)
  · refine ⟨s.resA, (runEvents_cons [] (t := { s with discardInFlight := false, seqPhase := .idle })
      fun es => ?_).trans (runEvents_nil _)⟩
    refine (State.conversionDone_of_convB_discarded (s := { s with inbox := es }) hp hd v).trans ?_
    exact congrArg _ (State.finish_of_not_pending (s := { s with inbox := es }) hnone)

/-- The result of the phase in which a stop found the conversion, with the outputs driven until then. -/
theorem runEvents_stopped_result (s : State) (b : Byte) (v : BitVec 10) {q : SeqPhase} (hq : q = .convA ∨ q = .convB)
    (outputs : List Output) :
    ∃ t, runEvents { s.stopped b with seqPhase := q, trace := outputs } [.adcDone v] = .next t ∧
      t.trace = outputs ∧ t.seqPhase = .idle ∧ t.discardInFlight = false ∧ t.pendingStart = false ∧ t.mode = .off ∧
      t.count = 0 ∧ t.buf = s.buf ∧ t.overrunCount = 0 ∧ t.cumulativeTicks = s.cumulativeTicks ∧
      t.targetPeriod = s.targetPeriod := by
  obtain ⟨r, hrun⟩ := runEvents_discarded (s := { s.stopped b with seqPhase := q, trace := outputs }) hq rfl rfl v
  exact ⟨_, hrun, rfl, rfl, rfl, rfl, rfl, State.count_of_empty rfl, rfl, rfl, rfl, rfl⟩

/-- Settles O59, by the phase in flight: a settling delay that is armed ends first, and the result of the phase's
channel is dropped. -/
theorem stopDiscardsConversionInFlight : Obligations.StopDiscardsConversionInFlight := by
  intro s b v hstop hbusy
  rw [runEvents_stop hstop hbusy]
  cases hp : s.seqPhase with
  | idle => exact absurd hp hbusy
  | settleA =>
    rw [if_pos (.inl rfl), List.singleton_append, runEvents_settleA (s := s.stopped b) hp]
    exact runEvents_stopped_result s b v (.inl rfl) _
  | settleB =>
    rw [if_pos (.inr rfl), List.singleton_append, runEvents_settleB (s := s.stopped b) hp]
    exact runEvents_stopped_result s b v (.inr rfl) _
  | convA =>
    simp only [reduceCtorEq, or_self, if_false, List.nil_append, List.append_nil]
    exact runEvents_stopped_result s b v (.inl hp) s.trace
  | convB =>
    simp only [reduceCtorEq, or_self, if_false, List.nil_append, List.append_nil]
    exact runEvents_stopped_result s b v (.inr hp) s.trace

end Sys2Proof.Machine
end

section
/-! A whole conversion (R72..R75) and the read transactions (R95, R47, R68, R69): the trim read back, samples served
cycle by cycle, and an empty buffer. -/

namespace Sys2Proof.Machine

/-! ### A conversion -/

/-- The result of channel A, in a run (R74). -/
theorem runEvents_resultA {s : State} (hp : s.seqPhase = .convA) (hd : s.discardInFlight = false) (v : BitVec 10)
    (es : List Event) :
    runEvents s (.adcDone v :: es) =
      runEvents { s with resA := v, seqPhase := .settleB, trace := s.trace ++ [.settleArm] } es :=
  runEvents_cons es fun es => State.conversionDone_of_convA (s := { s with inbox := es }) hp hd v

/-- The result of channel B in a buffer with room, with no start pending, in a run (R65, R75, R77). -/
theorem runEvents_resultB {s : State} (hp : s.seqPhase = .convB) (hd : s.discardInFlight = false)
    (hnone : s.pendingStart = false) (hroom : s.slotAfter s.head ≠ s.tail) (hhead : s.head < s.params.slots)
    (v : BitVec 10) (es : List Event) :
    runEvents s (.adcDone v :: es) = runEvents { s with
      buf := s.buf.write s.head { a := s.resA, b := v, ov := s.overrunCount, valid := true }
      head := s.slotAfter s.head
      overrunCount := 0
      ctrlRun := s.ctrlRun && !(s.params.singleAutoclear && s.mode == .single)
      discardInFlight := false
      seqPhase := .idle } es := by
  refine runEvents_cons es fun es => ?_
  refine (State.conversionDone_of_convB (s := { s with inbox := es }) hp hd v).trans ?_
  rw [State.push_of_room (s := { s with inbox := es }) hroom hhead, mapNext_next]
  exact congrArg _ (State.finish_of_not_pending hnone)

/-- A whole conversion that is kept, in a buffer with room (R72..R75). -/
theorem runEvents_conversion {s : State} (hp : s.seqPhase = .settleA) (hd : s.discardInFlight = false)
    (hnone : s.pendingStart = false) (hroom : s.slotAfter s.head ≠ s.tail) (hhead : s.head < s.params.slots)
    (a b : BitVec 10) :
    runEvents s (conversion a b) = .next { s with
      inbox := []
      resA := a
      buf := s.buf.write s.head { a := a, b := b, ov := s.overrunCount, valid := true }
      head := s.slotAfter s.head
      overrunCount := 0
      ctrlRun := s.ctrlRun && !(s.params.singleAutoclear && s.mode == .single)
      discardInFlight := false
      seqPhase := .idle
      trace := s.trace ++ [.adcStart .a, .settleArm, .adcStart .b] } := by
  rw [conversion, runEvents_settleA hp, runEvents_resultA rfl, runEvents_settleB rfl, runEvents_resultB rfl,
    runEvents_nil]
  case hd => exact hd
  case hnone => exact hnone
  case hroom => exact hroom
  case hhead => exact hhead
  case hd => exact hd
  simp only [List.append_assoc, List.cons_append, List.nil_append]
  rfl

/-- Settles O58: in a state that meets the invariant a conversion that is kept has no start pending, and the slot after
`head` is free. -/
theorem conversionPushesPair : Obligations.ConversionPushesPair := by
  intro s a b h hp hd hcount
  have hroom : s.slotAfter s.head ≠ s.tail := (State.count_succ_lt_iff h.headSlot h.tailSlot).1 hcount
  have hnone : s.pendingStart = false :=
    Bool.eq_false_iff.2 fun hpend => Bool.eq_false_iff.1 hd (h.pendingDiscards hpend)
  exact ⟨_, runEvents_conversion hp hd hnone hroom h.headSlot a b, Memory.read_write_same _ _ _ h.memoryCanonical,
    State.count_of_head_advanced h.headSlot h.tailSlot hroom rfl rfl rfl, rfl, rfl, rfl, rfl, rfl⟩

/-! ### Read transactions -/

/-- The state in which a read of a command finds its first byte request (R93, R94). -/
def State.readStart (s : State) (c : Byte) : State :=
  { s with busDir := .read, byteIndex := 0, commitArm := false, rdEmpty := false, activeCommand := c }

/-- A read of a command runs its byte requests from there. -/
theorem runEvents_hostReadCommand (s : State) (c : Byte) (k : Nat) :
    runEvents s (hostReadCommand c k) = runEvents (s.readStart c) (List.replicate k .byteRequested) := by
  rw [hostReadCommand, runEvents_hostWrite, List.map_nil, List.nil_append, hostRead, runEvents_addrMatch]
  rfl

/-- A write of the trim (R117). -/
theorem runEvents_writeTrim (s : State) (b : Byte) (es : List Event) :
    runEvents s (hostWrite 0x08 [b] ++ es) =
      runEvents { s.writeStart 0x08 with byteIndex := 2, trim := trimOfByte b } es :=
  runEvents_hostWrite_one (decode_write [] rfl) (t := { s.writeStart 0x08 with trim := trimOfByte b })
    (fun _ => congrArg _ (if_pos rfl)) es

/-- A read of the trim (R118). -/
theorem runEvents_readTrim (s : State) : runEvents s (hostReadCommand 0x08 1) = .next { s.readStart 0x08 with
    inbox := [], byteIndex := 1, trace := s.trace ++ [.busData (byteOfTrim s.trim)] } := by
  rw [runEvents_hostReadCommand, List.replicate_one]
  exact runEvents_request [] (i := .c8rTrim) rfl (decode_read [] rfl) (t := { s.readStart 0x08 with
    byteIndex := 1, trace := s.trace ++ [.busData (byteOfTrim s.trim)] }) fun _ => rfl

/-- Settles O60: the byte read back is the sign extension of the trim that was stored. -/
theorem trimReadsBack : Obligations.TrimReadsBack := by
  intro s b
  rw [runEvents_writeTrim, runEvents_readTrim]
  exact ⟨_, _, rfl, rfl, (toInt_byteOfTrim _).trans (toInt_trimOfByte b), rfl⟩

/-! ### One byte request of a data command -/

/-- Inside the limit the index advances by one. -/
theorem State.toNat_advanceIndex {s : State} {l : SampleLayout} {n : Nat} (hi : s.byteIndex.toNat = n)
    (hmax : n < l.cycle * l.maxSamples) : s.advanceIndex.byteIndex.toNat = n + 1 := by
  rw [State.advanceIndex_byteIndex, toNat_indexBump, hi]
  cases l
  all_goals
    simp only [SampleLayout.cycle, SampleLayout.maxSamples, Config.unpackedMax, Config.packedMax] at hmax
    omega

section
variable {s : State} {l : SampleLayout} (hd : s.busDir = .read) (hc : s.activeCommand = l.command)
include hd hc

/-- A byte request of a data command in a run is a peek at the advanced index (R108, R110). -/
theorem runEvents_peek {t : State}
    (hpeek : ∀ es, State.peek { s.advanceIndex with inbox := es } l = .next { t with inbox := es }) (es : List Event) :
    runEvents s (.byteRequested :: es) = runEvents t es := by
  cases l with
  | unpacked => exact runEvents_request es (i := .c3rUnpacked) hd (by rw [hc]; exact decode_read [] rfl) hpeek
  | packed => exact runEvents_request es (i := .c4rPacked) hd (by rw [hc]; exact decode_read [] rfl) hpeek

section
variable {n : Nat} (hi : s.byteIndex.toNat = n) (hmax : n < l.cycle * l.maxSamples)
include hi hmax

/-- The first byte of a cycle, a sample held. -/
theorem runEvents_firstByte (hmod : (n + 1) % l.cycle = 1) (hheld : s.head ≠ s.tail) (ht : s.tail < s.params.slots)
    (es : List Event) :
    runEvents s (.byteRequested :: es) = runEvents { s.advanceIndex with
      rdEmpty := false, trace := s.trace ++ [.busData (l.byte (s.buf.read s.tail) 1)] } es := by
  have hindex := State.toNat_advanceIndex hi hmax
  exact runEvents_peek hd hc (fun es => State.peek_first_held (s := { s.advanceIndex with inbox := es })
    (hindex ▸ hmax) (by rw [← hmod, ← hindex]) hheld ht) es

/-- A byte between the first and the last of a cycle that was not latched empty. -/
theorem runEvents_middleByte {p : Nat} (hp : 2 ≤ p) (hlast : p ≠ l.cycle) (hmod : (n + 1) % l.cycle = p)
    (he : s.rdEmpty = false) (ht : s.tail < s.params.slots) (es : List Event) :
    runEvents s (.byteRequested :: es) =
      runEvents (s.advanceIndex.emit (l.byte (s.buf.read s.tail) p)) es := by
  have hindex := State.toNat_advanceIndex hi hmax
  exact runEvents_peek hd hc (fun es => State.peek_middle (s := { s.advanceIndex with inbox := es })
    (hindex ▸ hmax) hp hlast (by rw [← hmod, ← hindex]) he ht) es

/-- The last byte of a cycle that was not latched empty: `tail` advances (R69). -/
theorem runEvents_lastByte (hmod : (n + 1) % l.cycle = 0) (he : s.rdEmpty = false) (ht : s.tail < s.params.slots)
    (es : List Event) :
    runEvents s (.byteRequested :: es) =
      runEvents (s.advanceIndex.advanceTail.emit (l.byte (s.buf.read s.tail) l.cycle)) es := by
  have hindex := State.toNat_advanceIndex hi hmax
  have hne : s.advanceIndex.byteIndex.toNat ≠ 0 := by omega
  exact runEvents_peek hd hc (fun es => State.peek_last (s := { s.advanceIndex with inbox := es })
    (hindex ▸ hmax) hne (by rw [← hmod, ← hindex]) he ht) es

end

/-- A byte request of an empty buffer whose cycles are latched so (R47, R68). -/
theorem runEvents_emptyByte (hempty : s.head = s.tail) (hlatch : s.inCycle → s.rdEmpty = true) (es : List Event) :
    ∃ e, runEvents s (.byteRequested :: es) =
        runEvents { s.advanceIndex with rdEmpty := e, trace := s.trace ++ [.busData 0x00] } es ∧
      (s.advanceIndex.inCycle → e = true) := by
  by_cases hout : s.advanceIndex.byteIndex.toNat = 0 ∨ l.cycle * l.maxSamples < s.advanceIndex.byteIndex.toNat
  case pos =>
    exact ⟨s.rdEmpty, runEvents_peek hd hc (fun es => State.peek_of_outside (s := { s.advanceIndex with inbox := es })
      hout) es, fun h => absurd h (State.not_inCycle_of_outside hc hout)⟩
  case neg =>
    have hmax : s.advanceIndex.byteIndex.toNat ≤ l.cycle * l.maxSamples := by omega
    by_cases hmod : s.advanceIndex.byteIndex.toNat % l.cycle = 1
    case pos =>
      exact ⟨true, runEvents_peek hd hc (fun es => State.peek_first_empty (s := { s.advanceIndex with inbox := es })
        hmax hmod hempty) es, fun _ => rfl⟩
    case neg =>
      have hne : s.advanceIndex.byteIndex.toNat ≠ 0 := by omega
      have he : s.rdEmpty = true := hlatch
        (State.inCycle_of_later hd hc (by omega) hmax (mt (SampleLayout.position_eq_one_iff hne).1 hmod))
      exact ⟨s.rdEmpty, runEvents_peek hd hc (fun es => State.peek_later_latched
        (s := { s.advanceIndex with inbox := es }) hmax hne hmod he) es, fun _ => he⟩

end

/-! ### A sample cycle -/

/-- The outputs of the cycle positions from p on, m of them, for a sample in a layout. -/
def SampleLayout.outputs (l : SampleLayout) (x : Sample) (p m : Nat) : List Output :=
  (List.range' p m).map fun p => .busData (l.byte x p)

/-- The bytes of a cycle from position p to the last, in a cycle that was not latched empty. -/
theorem runEvents_cycleRest {l : SampleLayout} (es : List Event) (m : Nat) : ∀ (s : State) (n p : Nat),
    s.busDir = .read → s.activeCommand = l.command → s.byteIndex.toNat = n → n < l.cycle * l.maxSamples →
    2 ≤ p → p + m = l.cycle → (n + 1) % l.cycle = p % l.cycle → s.rdEmpty = false → s.tail < s.params.slots →
    ∃ i : Byte, i.toNat = n + m + 1 ∧
      runEvents s (List.replicate (m + 1) .byteRequested ++ es) = runEvents { s.advanceTail with
        byteIndex := i, trace := s.trace ++ l.outputs (s.buf.read s.tail) p (m + 1) } es := by
  induction m with
  | zero =>
    intro s n p hd hc hi hmax hp hm hmod he ht
    have hlast : p = l.cycle := hm
    rw [hlast, Nat.mod_self] at hmod
    rw [hlast]
    exact ⟨_, State.toNat_advanceIndex hi hmax, runEvents_lastByte hd hc hi hmax hmod he ht es⟩
  | succ m ih =>
    intro s n p hd hc hi hmax hp hm hmod he ht
    have hpmod : (n + 1) % l.cycle = p := hmod.trans (Nat.mod_eq_of_lt (by omega))
    have hnext : n + 1 < l.cycle * l.maxSamples ∧ (n + 1 + 1) % l.cycle = (p + 1) % l.cycle := by
      cases l
      all_goals
        simp only [SampleLayout.cycle, SampleLayout.maxSamples, Config.unpackedMax, Config.packedMax] at *
        omega
    obtain ⟨i, hindex, hrest⟩ := ih (s.advanceIndex.emit (l.byte (s.buf.read s.tail) p)) (n + 1) (p + 1) hd hc
      (State.toNat_advanceIndex hi hmax) hnext.left (by omega) (by omega) hnext.right he ht
    refine ⟨i, by omega, ?_⟩
    rw [List.replicate_succ, List.cons_append, runEvents_middleByte hd hc hi hmax hp (by omega) hpmod he ht, hrest,
      State.emit_trace, List.append_assoc]
    rfl

/-- A whole cycle with a sample held: its bytes are served, and `tail` advances (R68, R69). -/
theorem runEvents_cycle {s : State} {l : SampleLayout} {n : Nat} (hd : s.busDir = .read)
    (hc : s.activeCommand = l.command) (hi : s.byteIndex.toNat = n) (hmod : n % l.cycle = 0)
    (hmax : n < l.cycle * l.maxSamples) (hheld : s.head ≠ s.tail) (ht : s.tail < s.params.slots) (es : List Event) :
    ∃ i : Byte, i.toNat = n + l.cycle ∧
      runEvents s (List.replicate l.cycle .byteRequested ++ es) = runEvents { s.advanceTail with
        byteIndex := i, rdEmpty := false
        trace := s.trace ++ l.outputs (s.buf.read s.tail) 1 l.cycle } es := by
  obtain ⟨m, hm⟩ : ∃ m, l.cycle = m + 2 := by
    cases l
    · exact ⟨2, rfl⟩
    · exact ⟨1, rfl⟩
  have hfirst : (n + 1) % l.cycle = 1 ∧ (n + 1 + 1) % l.cycle = 2 % l.cycle ∧ n + 1 < l.cycle * l.maxSamples := by
    cases l
    all_goals
      simp only [SampleLayout.cycle, SampleLayout.maxSamples, Config.unpackedMax, Config.packedMax] at *
      omega
  obtain ⟨hone, htwo, hmore⟩ := hfirst
  obtain ⟨i, hindex, hrest⟩ := runEvents_cycleRest (l := l) es m { s.advanceIndex with
    rdEmpty := false, trace := s.trace ++ [.busData (l.byte (s.buf.read s.tail) 1)] } (n + 1) 2 hd hc
    (State.toNat_advanceIndex hi hmax) hmore (Nat.le_refl 2) (by omega) htwo rfl ht
  refine ⟨i, by omega, ?_⟩
  have hcount : List.replicate l.cycle Event.byteRequested =
      .byteRequested :: List.replicate (m + 1) .byteRequested := by
    rw [hm]
    rfl
  rw [hcount, List.cons_append, runEvents_firstByte hd hc hi hmax hone hheld ht, hrest, List.append_assoc, hm]
  rfl

/-- Settles O55: one unpacked cycle. -/
theorem unpackedTransactionServesSample : Obligations.UnpackedTransactionServesSample := by
  intro s hheld ht
  obtain ⟨i, -, hrun⟩ := runEvents_cycle (s := s.readStart 0x03) (l := .unpacked) (n := 0) rfl rfl rfl rfl (by decide)
    hheld ht []
  rw [List.append_nil] at hrun
  rw [runEvents_hostReadCommand]
  exact ⟨_, hrun, rfl, rfl, rfl, rfl, rfl⟩

/-- Cycles with `tail` pinned serve the same sample again and again (R69). -/
theorem runEvents_pinnedCycles {l : SampleLayout} (m : Nat) : ∀ (s : State) (n : Nat), s.mode = .single →
    s.busDir = .read → s.activeCommand = l.command → s.byteIndex.toNat = n → n % l.cycle = 0 →
    n + l.cycle * m ≤ l.cycle * l.maxSamples → s.head ≠ s.tail → s.tail < s.params.slots →
    ∃ t, runEvents s (List.replicate (l.cycle * m) .byteRequested) = .next t ∧
      t.trace = s.trace ++ (List.replicate m (l.outputs (s.buf.read s.tail) 1 l.cycle)).flatten ∧
      t.tail = s.tail ∧ t.head = s.head ∧ t.buf = s.buf := by
  induction m with
  | zero =>
    intro s n _ _ _ _ _ _ _ _
    exact ⟨_, runEvents_nil s, (List.append_nil _).symm, rfl, rfl, rfl⟩
  | succ m ih =>
    intro s n hm hd hc hi hmod hmax hheld ht
    have hpos : 0 < l.cycle := by cases l <;> decide
    have hpinned : s.advanceTail = s := by rw [State.advanceTail, if_pos hm]
    rw [Nat.mul_succ] at hmax ⊢
    obtain ⟨i, hindex, hcycle⟩ := runEvents_cycle hd hc hi hmod (by omega) hheld ht
      (List.replicate (l.cycle * m) .byteRequested)
    rw [hpinned] at hcycle
    obtain ⟨t, hrest, htrace, htail, hhead, hbuf⟩ := ih { s with
      byteIndex := i, rdEmpty := false
      trace := s.trace ++ l.outputs (s.buf.read s.tail) 1 l.cycle } (n + l.cycle) hm hd hc hindex
      (by rw [Nat.add_mod_right, hmod]) (by omega) hheld ht
    rw [Nat.add_comm, List.replicate_add, hcycle]
    exact ⟨t, hrest, by rw [htrace, List.replicate_succ, List.flatten_cons, List.append_assoc], htail, hhead, hbuf⟩

/-- Settles O56: n packed cycles with `tail` pinned. -/
theorem singleModeRepeatsSample : Obligations.SingleModeRepeatsSample := by
  intro s n hm hheld ht hn
  rw [runEvents_hostReadCommand]
  exact runEvents_pinnedCycles (l := .packed) n (s.readStart 0x04) 0 hm rfl rfl rfl rfl
    (by simp only [SampleLayout.cycle, SampleLayout.maxSamples, Config.packedMax]; omega) hheld ht

/-! ### An empty buffer -/

/-- Byte requests of an empty buffer serve zeros, whatever their number (R47). -/
theorem runEvents_emptyReads {l : SampleLayout} (k : Nat) : ∀ s : State, s.busDir = .read →
    s.activeCommand = l.command → s.head = s.tail → (s.inCycle → s.rdEmpty = true) →
    ∃ i e, runEvents s (List.replicate k .byteRequested) = .next { s with
      inbox := [], byteIndex := i, rdEmpty := e, trace := s.trace ++ List.replicate k (.busData 0x00) } := by
  induction k with
  | zero =>
    intro s _ _ _ _
    exact ⟨s.byteIndex, s.rdEmpty, by rw [List.replicate_zero, List.replicate_zero, List.append_nil]; rfl⟩
  | succ k ih =>
    intro s hd hc hempty hlatch
    obtain ⟨e, hfirst, hlatch'⟩ := runEvents_emptyByte hd hc hempty hlatch (List.replicate k .byteRequested)
    obtain ⟨i, e', hrest⟩ := ih { s.advanceIndex with rdEmpty := e, trace := s.trace ++ [.busData 0x00] } hd hc hempty
      hlatch'
    refine ⟨i, e', ?_⟩
    rw [List.replicate_succ, hfirst, hrest, List.append_assoc, List.replicate_succ]
    rfl

/-- Settles O57: the transaction begins outside any cycle, and both commands read a layout. -/
theorem emptyBufferReadsZero : Obligations.EmptyBufferReadsZero := by
  intro s c k hc hempty
  obtain ⟨l, hl⟩ : ∃ l : SampleLayout, c = l.command :=
    hc.elim (fun h => ⟨.unpacked, h⟩) fun h => ⟨.packed, h⟩
  obtain ⟨i, e, hrun⟩ := runEvents_emptyReads (l := l) k (s.readStart c) rfl hl hempty
    fun hin => absurd hin (State.not_inCycle_of_index_zero rfl)
  rw [runEvents_hostReadCommand]
  exact ⟨_, hrun, rfl, rfl, rfl, rfl⟩

end Sys2Proof.Machine
end
